-- ==== Sys2Proof/Word.lean ====
section
/-! DEFINITION. The two word types of the machine (spec 00_scope R8, R11): 8-bit data and 16-bit addresses.
Both are bit vectors because the spec adds, masks and shifts them and software sees them as words. -/

namespace Sys2Proof

/-- Data width of A, X, Y, S and every memory cell (R8). -/
abbrev Byte := BitVec 8

/-- Program counter and bus address width (R8, R25): 16 bits, wrapping at 64K. -/
abbrev Word := BitVec 16

end Sys2Proof
end

