-- ==== Sys2Proof/Config.lean ====
section
/-! DEFINITION. The configuration parameters of spec 00_scope R9 that are fixed at load time (10_state R41), as plain data, and the
three free values ("draws") of R10.

The parameters stand in `State` as one field that no step changes, so a statement about every state is a statement about every
configuration. `cycleTable` and `intCycles`, whose values the spec decides (D8), are definitions in Machine/Cycles.lean;
`ram0` and `vram0` (D7) are arguments of power-on in Machine/Loader.lean. -/

namespace Sys2Proof

/-- `prgUnits` ∈ {1, 2}: the program image in 16 KB units (R9). -/
inductive PrgUnits where
  | one
  | two
  deriving DecidableEq, Repr

/-- `chrUnits` ∈ {0, 1}: the tile bitmaps in 8 KB units (R9). -/
inductive ChrUnits where
  | zero
  | one
  deriving DecidableEq, Repr

/-- `ntMirror` (R9, R83). -/
inductive NtMirror where
  | horizontal
  | vertical
  | fourScreen
  deriving DecidableEq, Repr

/-- `romWrites` (R9, D23): what a processor write to 0x8000-0xFFFF does. -/
inductive RomWrites where
  | store
  | ignore
  deriving DecidableEq, Repr

/-- `busMode` (R9, D24): the console's map, or 64 KB of plain storage for per-opcode vectors. -/
inductive BusMode where
  | nes
  | flat
  deriving DecidableEq, Repr

/-- The parameters fixed for a run (R9, R41). -/
structure Config where
  prgUnits : PrgUnits
  chrUnits : ChrUnits
  ntMirror : NtMirror
  romWrites : RomWrites
  busMode : BusMode
  /-- D9: whether interrupt-entry cycles reach the graphics unit. -/
  intCyclesReachGraphics : Bool
  /-- D21: the bit shifted into the input latch by a read. -/
  inputFill : Bool
  deriving DecidableEq, Repr

/-- The configuration of `State.reset`: the reference value where the spec gives one (R9: `romWrites` store, `busMode` nes,
`intCyclesReachGraphics` true). `prgUnits`, `chrUnits` and `ntMirror` are per image and `inputFill` has no stated value, so these
four are choices (DESIGN CHOICE and PRESUMED, log 2). -/
def Config.reference : Config :=
  { prgUnits := .two, chrUnits := .zero, ntMirror := .horizontal, romWrites := .store, busMode := .nes,
    intCyclesReachGraphics := true, inputFill := true }

/-- The draw `hostButtons` (R10, R88): the host's button byte at the `n`-th draw of a run. Free value, no law (log 4). -/
opaque Config.hostButtons : Nat → Byte

/-- The draw `statusLow7` (R10, R333): bits 6:0 of a graphics status read. Free value, no law (log 4). -/
opaque Config.statusLow7 : Nat → BitVec 7

/-- The draw `openReg` (R10, R334): the byte a write-only graphics register reads as. Free value, no law (log 4). -/
opaque Config.openReg : Nat → Byte

end Sys2Proof
end

