-- ==== Sys2Proof/Machine/Memory.lean ====
section
/-! DEFINITION. Byte arrays as plain data: a list of (index, byte) pairs in one canonical form, indexes strictly rising and no entry
equal to what an unlisted index reads as. The bus array `mem`, the graphics arrays and the frame all have this type.

An unlisted index reads 0x00, the reference value of `ram0` and `vram0` and the power-on value of `oam`, `snapNT`, `snapPal` and
`frame` (spec 10_state R40, R42, R43, R51, R52, D7, D20; DESIGN CHOICE for `mem` and `vram`, log 1). -/

namespace Sys2Proof.Machine

/-- A byte array. -/
abbrev Memory := List Host.Cell

/-- What an index that is not listed reads as (log 1). -/
def Memory.unlisted : Byte := 0x00#8

/-- The byte at an index. -/
def Memory.read : Memory → Nat → Byte
  | [], _ => Memory.unlisted
  | c :: m, a => if c.1 = a then c.2 else Memory.read m a

/-- The array without an entry for one index, which then reads as an unlisted one. -/
def Memory.erase (m : Memory) (a : Nat) : Memory := m.filter fun c => c.1 != a

/-- A new entry at its place in the order. -/
def Memory.place (a : Nat) (v : Byte) : Memory → Memory
  | [] => [(a, v)]
  | c :: m => if a < c.1 then (a, v) :: c :: m else c :: Memory.place a v m

/-- Store one byte, keeping the canonical form. -/
def Memory.write (m : Memory) (a : Nat) (v : Byte) : Memory :=
  if v = Memory.unlisted then Memory.erase m a else Memory.place a v (Memory.erase m a)

/-- The entries of `n` bytes from an index on, where the byte at index `i` is `f i`. -/
def Memory.cellsOfFn (f : Nat → Byte) : Nat → Nat → Memory
  | _, 0 => []
  | i, n + 1 =>
    if f i = Memory.unlisted then Memory.cellsOfFn f (i + 1) n else (i, f i) :: Memory.cellsOfFn f (i + 1) n

/-- The array of `n` bytes whose byte `i` is `f i`. -/
def Memory.ofFn (n : Nat) (f : Nat → Byte) : Memory := Memory.cellsOfFn f 0 n

/-- The entries of a byte sequence laid out from an index on. -/
def Memory.cellsFrom : Nat → List Byte → Memory
  | _, [] => []
  | a, v :: vs =>
    if v = Memory.unlisted then Memory.cellsFrom (a + 1) vs else (a, v) :: Memory.cellsFrom (a + 1) vs

/-- A byte sequence laid over an array from an index on (the image overlays, 70_reset R405, R406). -/
def Memory.overlay (m : Memory) (base : Nat) (bytes : List Byte) : Memory :=
  (m.filter fun c => decide (c.1 < base)) ++ Memory.cellsFrom base bytes ++
    (m.filter fun c => decide (base + bytes.length ≤ c.1))

/-- The canonical form: indexes strictly rising, and no entry that an unlisted index would read as. -/
abbrev Memory.wf (m : Memory) : Prop :=
  m.Pairwise (fun c d => c.1 < d.1) ∧ ∀ c ∈ m, c.2 ≠ Memory.unlisted

/-- Every listed index lies inside an array of `n` bytes. -/
abbrev Memory.within (m : Memory) (n : Nat) : Prop := ∀ c ∈ m, c.1 < n

end Sys2Proof.Machine
end

