-- ==== Sys2Proof/Machine/State.lean ====
section
/-! DEFINITION. The machine's state as plain data: every piece of state that spec 10_state names (R20-R55), and three fields that are
the model's own (`draws`, `hostMoves`, `framesReady`), each marked so. `State.reset` is the state that power-on leaves
(70_reset R400, R401, 10_state R55) when nothing is loaded. -/

namespace Sys2Proof.Machine

/-- The stored bits of the status byte P (R26). Bit 5 has no storage (R32). -/
structure Flags where
  n : Bool
  v : Bool
  b : Bool
  d : Bool
  i : Bool
  z : Bool
  c : Bool
  deriving DecidableEq, Repr

/-- The processor's registers (R20): A (R21), X (R22), Y (R23), S (R24), PC (R25) and the status byte's bits. -/
structure Cpu where
  a : Byte
  x : Byte
  y : Byte
  s : Byte
  pc : Word
  p : Flags
  deriving DecidableEq, Repr

/-- The register snapshot of a fault record (60_exceptions R302). -/
structure Snapshot where
  a : Byte
  x : Byte
  y : Byte
  s : Byte
  pc : Word
  p : Byte
  cycles : Nat
  deriving DecidableEq, Repr

/-- What a decode fault records beside its kind (R302). -/
structure FaultInfo where
  opcode : Byte
  addr : Word
  snapshot : Snapshot
  deriving DecidableEq, Repr

/-- The run-time fault kinds by name (R301). -/
inductive FaultKind where
  | unknownOpcode
  | noAddress
  | unsupportedMode
  deriving DecidableEq, Repr

/-- A fault record: its kind (R301) with what it records (R302). A faulted machine takes no further step (R300). All three are SAFE: the spec itself stops the
machine there, so nothing false about a running machine can be proved from them. The two load-time kinds are `LoadError` in
Machine/Loader.lean, since no machine exists after one. -/
inductive Fault where
  /-- Raised by the instruction step when the fetched byte is one of the 104 bytes of 30_encoding R104 other than 0x89. Safe. -/
  | unknownOpcode (info : FaultInfo)
  /-- Raised by the instruction step for 0x89 only: store with immediate has no address (40_addressing R143). Safe. -/
  | noAddress (info : FaultInfo)
  /-- Raised by the resolver for a mode outside its set (R143); no byte of the opcode map reaches it. Safe. -/
  | unsupportedMode (info : FaultInfo)
  deriving DecidableEq, Repr

/-- The record of a kind. -/
def FaultKind.record (k : FaultKind) (info : FaultInfo) : Fault :=
  match k with
  | .unknownOpcode => .unknownOpcode info
  | .noAddress => .noAddress info
  | .unsupportedMode => .unsupportedMode info

/-- Why the model gives an instruction no meaning. -/
inductive Refusal where
  /-- Raised by `exec` for a table row that has no meaning yet. No arm of this model raises it. Safe. -/
  | notModelled (mnemonic : String)
  deriving DecidableEq, Repr

/-- The graphics unit (R42-R52): its private memory, its register file, its timing counters and the composer's arrays. -/
structure Gfx where
  /-- 16,384 bytes, indexed after graphics-space normalization (R42). -/
  vram : Memory
  /-- 256 bytes of sprite table (R43). -/
  oam : Memory
  ctrl : Byte
  mask : Byte
  oamAddr : Byte
  oamDataLast : Byte
  scrollLast : Byte
  /-- Inside vertical blank (R46). -/
  vblank : Bool
  /-- The address register's two-write latch: `true` when the next address write is the second (R47). -/
  w : Bool
  /-- The VRAM pointer (R48). -/
  ptr : Word
  /-- The read-data buffer (R49). -/
  buffer : Byte
  /-- 0..261 (R50). -/
  scanline : Nat
  /-- 0..340 between two calls of `advance` (R50). -/
  dot : Nat
  /-- 1,024 bytes: the composer's nametable snapshot (R51). -/
  snapNT : Memory
  /-- 16 bytes: the composer's palette snapshot (R51). -/
  snapPal : Memory
  /-- 240 rows of 256 palette values; row r, column c is at 256*r + c (R52). -/
  frame : Memory
  deriving DecidableEq, Repr

/-- The input latch (R53). -/
structure InputLatch where
  capture : Bool
  latch : Byte
  deriving DecidableEq, Repr

/-- The host's moves between orchestrator steps (60_exceptions R343). `proceed` is no move: it lets one orchestrator step run. -/
inductive HostMove where
  | proceed
  | reset
  | nmi
  | irq
  | toggleHalt
  | stop
  deriving DecidableEq, Repr

/-- The state of the block. -/
structure State where
  cpu : Cpu
  /-- Processor cycles consumed (R27). -/
  cycles : Nat
  /-- The orchestrator's copy of `cycles` (R38). -/
  lastCycles : Nat
  /-- Instruction fetch suspended (R28). -/
  halted : Bool
  /-- The fault record; once set nothing clears it (R29). -/
  fault : Option Fault
  /-- The bus backing store, 65,536 bytes (R40). -/
  mem : Memory
  gfx : Gfx
  input : InputLatch
  /-- The parameters fixed at load time (R41). -/
  cfg : Config
  /-- MODEL'S OWN (log 4): how many free values have been drawn; the next draw takes the free value of this number. -/
  draws : Nat
  /-- MODEL'S OWN (log 5): the host moves still to come, in order; when empty, only orchestrator steps come. -/
  hostMoves : List HostMove
  /-- MODEL'S OWN (log 6): how many frame-ready notifications the host has received (R324). -/
  framesReady : Nat
  deriving DecidableEq, Repr

/-- The flags that reset leaves: I set, all else clear (R26, R400). -/
def Flags.reset : Flags := { n := false, v := false, b := false, d := false, i := true, z := false, c := false }

/-- The graphics unit at power-on with nothing loaded (R401; D30, D14, D20). -/
def Gfx.powerOn : Gfx :=
  { vram := [], oam := [], ctrl := 0, mask := 0, oamAddr := 0, oamDataLast := 0, scrollLast := 0, vblank := false, w := false,
    ptr := 0, buffer := 0, scanline := 0, dot := 0, snapNT := [], snapPal := [], frame := [] }

/-- The machine right after power-on and reset with nothing loaded (R55, R401). The program counter is the word at 0xFFFC/0xFFFD,
which reads 0x0000 in an array with nothing listed (log 1, log 3). -/
def State.reset : State :=
  { cpu := { a := 0x00, x := 0x00, y := 0x00, s := 0xFD, pc := 0x0000, p := Flags.reset }
    cycles := 0
    lastCycles := 0
    halted := false
    fault := none
    mem := []
    gfx := Gfx.powerOn
    input := { capture := false, latch := 0x00 }
    cfg := Config.reference
    draws := 0
    hostMoves := []
    framesReady := 0 }

end Sys2Proof.Machine
end

