-- ==== Sys2Proof/Machine/Registers.lean ====
section
/-! DEFINITION. The writes `R <- v` of spec 00_scope R12, one per piece of state: every write to a register or a unit goes through
one of these. -/

namespace Sys2Proof.Machine

/-- `A <- v` (R21). -/
def State.setA (s : State) (v : Byte) : State := { s with cpu := { s.cpu with a := v } }

/-- `X <- v` (R22). -/
def State.setX (s : State) (v : Byte) : State := { s with cpu := { s.cpu with x := v } }

/-- `Y <- v` (R23). -/
def State.setY (s : State) (v : Byte) : State := { s with cpu := { s.cpu with y := v } }

/-- `S <- v` (R24). -/
def State.setS (s : State) (v : Byte) : State := { s with cpu := { s.cpu with s := v } }

/-- `PC <- w` (R25). -/
def State.setPc (s : State) (w : Word) : State := { s with cpu := { s.cpu with pc := w } }

/-- Write the stored bits of P (R26). -/
def State.setP (s : State) (p : Flags) : State := { s with cpu := { s.cpu with p := p } }

/-- Write the cycle counter (R27). -/
def State.setCycles (s : State) (n : Nat) : State := { s with cycles := n }

/-- Write the orchestrator's copy of the cycle counter (R38). -/
def State.setLastCycles (s : State) (n : Nat) : State := { s with lastCycles := n }

/-- Write the halt bit (R28). -/
def State.setHalted (s : State) (b : Bool) : State := { s with halted := b }

/-- Write the fault record (R29). -/
def State.setFault (s : State) (f : Option Fault) : State := { s with fault := f }

/-- Write the bus backing store (R40). -/
def State.setMem (s : State) (m : Memory) : State := { s with mem := m }

/-- Write the graphics unit (R42-R52). -/
def State.setGfx (s : State) (g : Gfx) : State := { s with gfx := g }

/-- Write the input latch (R53). -/
def State.setInput (s : State) (l : InputLatch) : State := { s with input := l }

/-- Count one draw (model's own, log 4). -/
def State.countDraw (s : State) : State := { s with draws := s.draws + 1 }

/-- Write the host's remaining moves (model's own, log 5). -/
def State.setHostMoves (s : State) (l : List HostMove) : State := { s with hostMoves := l }

/-- Count one frame-ready notification (model's own, log 6). -/
def State.countFrame (s : State) : State := { s with framesReady := s.framesReady + 1 }

end Sys2Proof.Machine
end

