-- ==== Sys2Proof/Machine/Cycles.lean ====
section
/-! DEFINITION. Cycle costs (spec 70_reset R420-R422): a fixed base cost per opcode, with no page-cross, branch-taken or DMA penalty,
and the cost of an interrupt entry (D8). -/

namespace Sys2Proof.Machine

/-- The base cycle table of R420, row by row (row h, column l is opcode 0xhl); 0 stands at the 105 bytes that fault and have no
cost. -/
def cycleRows : List (List Nat) :=
  [[7, 6, 0, 0, 0, 3, 5, 0, 3, 2, 2, 0, 0, 4, 6, 0],
   [2, 5, 0, 0, 0, 4, 6, 0, 2, 4, 0, 0, 0, 4, 7, 0],
   [6, 6, 0, 0, 3, 3, 5, 0, 4, 2, 2, 0, 4, 4, 6, 0],
   [2, 5, 0, 0, 0, 4, 6, 0, 2, 4, 0, 0, 0, 4, 7, 0],
   [6, 6, 0, 0, 0, 3, 5, 0, 3, 2, 2, 0, 3, 4, 6, 0],
   [2, 5, 0, 0, 0, 4, 6, 0, 2, 4, 0, 0, 0, 4, 7, 0],
   [6, 6, 0, 0, 0, 3, 5, 0, 4, 2, 2, 0, 5, 4, 6, 0],
   [2, 5, 0, 0, 0, 4, 6, 0, 2, 4, 0, 0, 0, 4, 7, 0],
   [0, 6, 0, 0, 3, 3, 3, 0, 2, 0, 2, 0, 4, 4, 4, 0],
   [2, 6, 0, 0, 4, 4, 4, 0, 2, 5, 2, 0, 0, 5, 0, 0],
   [2, 6, 2, 0, 3, 3, 3, 0, 2, 2, 2, 0, 4, 4, 4, 0],
   [2, 5, 0, 0, 4, 4, 4, 0, 2, 4, 2, 0, 4, 4, 4, 0],
   [2, 6, 0, 0, 3, 3, 5, 0, 2, 2, 2, 0, 4, 4, 6, 0],
   [2, 5, 0, 0, 0, 4, 6, 0, 2, 4, 0, 0, 0, 4, 7, 0],
   [2, 6, 0, 0, 3, 3, 5, 0, 2, 2, 2, 0, 4, 4, 6, 0],
   [2, 5, 0, 0, 0, 4, 6, 0, 2, 4, 0, 0, 0, 4, 7, 0]]

/-- `cycleTable[op]` (R420). -/
def cycleTable (op : Byte) : Nat := (cycleRows.getD (op.toNat / 16) []).getD (op.toNat % 16) 0

/-- `intCycles`: the cost of an NMI or IRQ entry (R9, R310, D8). BRK costs its table value alone. -/
def intCycles : Nat := 7

/-- `cycles <- cycles + n` (60_exceptions R342, R311, R312). -/
def addCycles (n : Nat) (s : State) : State := s.setCycles (s.cycles + n)

end Sys2Proof.Machine
end

