-- ==== Sys2Proof/Machine/Bits.lean ====
section
/-! DEFINITION. Width changes and byte order: the notation of spec 00_scope R11 and the little-endian rule of 20_memory R68,
written once. -/

namespace Sys2Proof

/-- `zext_16(v)` (R11). -/
def zext16 (b : Byte) : Word := b.setWidth 16

/-- `sext_16(v)` (R11): two's complement, widened. -/
def sext16 (b : Byte) : Word := b.signExtend 16

/-- `{hi, lo}` (R11): hi*256 + lo. -/
def mkWord (hi lo : Byte) : Word := hi ++ lo

/-- `w & 0xFF` as a byte. -/
def loByte (w : Word) : Byte := w.extractLsb' 0 8

/-- `w >> 8` as a byte. -/
def hiByte (w : Word) : Byte := w.extractLsb' 8 8

/-- One bit widened to a byte: 0x00 or 0x01. -/
def bitByte (b : Bool) : Byte := (BitVec.ofBool b).setWidth 8

end Sys2Proof
end

