-- ==== Sys2Proof/Machine/Flags.lean ====
section
/-! DEFINITION. The status-flag unit (spec 41_flags) and every flag computation: packing and unpacking P, the result flags, the branch
condition, the add and compare cores (42_arith R170, R173), BIT's test (43_logic R193) and the shift functions (44_shift_rmw
R201-R206). All of them work on `Flags` and bytes alone. -/

namespace Sys2Proof.Machine

/-- `asByte()` = {N, V, 1, B, D, I, Z, C}, bit 7 to bit 0 (R150). -/
def Flags.asByte (p : Flags) : Byte :=
  BitVec.ofBool p.n ++ BitVec.ofBool p.v ++ 1#1 ++ BitVec.ofBool p.b ++ BitVec.ofBool p.d ++ BitVec.ofBool p.i ++
    BitVec.ofBool p.z ++ BitVec.ofBool p.c

/-- `loadByte(b)` (R151): every stored flag from its bit; bit 5 is ignored. -/
def Flags.loadByte (v : Byte) : Flags :=
  { n := v.getLsbD 7, v := v.getLsbD 6, b := v.getLsbD 4, d := v.getLsbD 3, i := v.getLsbD 2, z := v.getLsbD 1, c := v.getLsbD 0 }

/-- The status pull of PLP and RTI (46_stack R255, 47_control R272): `loadByte`, with B kept as it was. -/
def Flags.pulled (p : Flags) (v : Byte) : Flags := { Flags.loadByte v with b := p.b }

/-- The copy that PHP and BRK push (R253, 60_exceptions R310): B and bit 5 forced to 1. -/
def Flags.pushedByBreak (p : Flags) : Byte := p.asByte ||| 0x30#8

/-- `SetNZ(v)` (R152). -/
def Flags.setNZ (p : Flags) (v : Byte) : Flags := { p with z := decide (v = 0), n := v.getLsbD 7 }

/-- The flag a 2-bit selector names: 0 N, 1 V, 2 C, 3 Z (R153). -/
def Flags.selected (p : Flags) (sel : BitVec 2) : Bool :=
  match sel.toNat with
  | 0 => p.n
  | 1 => p.v
  | 2 => p.c
  | _ => p.z

/-- `branchTaken(sel, exp)` (R153). -/
def Flags.branchTaken (p : Flags) (sel : BitVec 2) (exp : Bool) : Bool := p.selected sel == exp

/-- `total = A + m + C`, unbounded (R170). -/
def addTotal (a m : Byte) (c : Bool) : Nat := a.toNat + m.toNat + c.toNat

/-- The sum byte of the add core (R170). -/
def addResult (a m : Byte) (c : Bool) : Byte := BitVec.ofNat 8 (addTotal a m c)

/-- The flags of the add core (R170): V from the operand, accumulator and total sign bits, C from the total, then N and Z of the
result. D is not read. -/
def Flags.addCore (p : Flags) (a m : Byte) : Flags :=
  { p with
    v := (a.getLsbD 7 == m.getLsbD 7) && ((addTotal a m p.c).testBit 7 != a.getLsbD 7)
    c := decide (255 < addTotal a m p.c) }.setNZ (addResult a m p.c)

/-- `diff = r - m`, unbounded (R173). -/
def compareDiff (r m : Byte) : Int := (r.toNat : Int) - (m.toNat : Int)

/-- The flags of the compare core (R173): C from the sign of the difference, N and Z from its low byte; V is not changed. -/
def Flags.compare (p : Flags) (r m : Byte) : Flags :=
  { p with c := decide (0 ≤ compareDiff r m) }.setNZ (BitVec.ofInt 8 (compareDiff r m))

/-- The flags of BIT (R193): Z from A & m, N and V from the operand's bits 7 and 6. -/
def Flags.bitTest (p : Flags) (a m : Byte) : Flags :=
  { p with z := decide (a &&& m = 0), n := m.getLsbD 7, v := m.getLsbD 6 }

/-- ASL's f(v, c) (R201). -/
def aslFn (v : Byte) (_c : Bool) : Byte × Bool := (v <<< 1, v.getLsbD 7)

/-- LSR's f(v, c) (R202). -/
def lsrFn (v : Byte) (_c : Bool) : Byte × Bool := (v >>> 1, v.getLsbD 0)

/-- ROL's f(v, c) (R203). -/
def rolFn (v : Byte) (c : Bool) : Byte × Bool := ((v <<< 1) ||| bitByte c, v.getLsbD 7)

/-- ROR's f(v, c) (R204). -/
def rorFn (v : Byte) (c : Bool) : Byte × Bool := ((v >>> 1) ||| (bitByte c <<< 7), v.getLsbD 0)

/-- INC's f(v, c) (R205): C is handed back as it was. -/
def incFn (v : Byte) (c : Bool) : Byte × Bool := (v + 1, c)

/-- DEC's f(v, c) (R206): C is handed back as it was. -/
def decFn (v : Byte) (c : Bool) : Byte × Bool := (v - 1, c)

end Sys2Proof.Machine
end

