-- ==== Sys2Proof/Machine/Graphics.lean ====
section
/-! DEFINITION. The graphics unit without its clock: its private address space (spec 20_memory R80-R84), its register file
(60_exceptions R330-R337) and the composer (R322, R323). The functions work on the unit alone; the free values of R333 and R334 come
in as arguments. The timing FSM is in Machine/Timing.lean, since it calls the processor's NMI entry. -/

namespace Sys2Proof.Machine

/-- `NtMirror(a)` for an address in 0x2000-0x2FFF (R83). -/
def ntMirrored (mode : NtMirror) (a : Word) : Word :=
  match mode with
  | .fourScreen => a
  | .vertical => 0x2000#16 + (a &&& 0x07FF#16)
  | .horizontal => 0x2000#16 + ((a &&& 0x0800#16) >>> 1) + (a &&& 0x03FF#16)

/-- The mirror region 0x3000-0x3EFF maps back by 0x1000 (R82), the second step of `VNorm`. -/
def foldNtMirror (a : Word) : Word := if 0x3000#16 ≤ a ∧ a ≤ 0x3EFF#16 then a - 0x1000#16 else a

/-- `VNorm(a)` (R82). -/
def vnorm (mode : NtMirror) (a : Word) : Word :=
  let a := foldNtMirror (a &&& 0x3FFF#16)
  if 0x3F00#16 ≤ a then 0x3F00#16 + (a &&& 0x001F#16)
  else if 0x2000#16 ≤ a then ntMirrored mode a
  else a

/-- `VRead(a)` (R80). -/
def Gfx.vread (mode : NtMirror) (g : Gfx) (a : Word) : Byte := g.vram.read (vnorm mode a).toNat

/-- The four entry-0 cells of the background palettes, one aliased value (R81, R84). -/
def isPaletteZero (a : Word) : Bool := a == 0x3F00#16 || a == 0x3F04#16 || a == 0x3F08#16 || a == 0x3F0C#16

/-- Store into all four entry-0 cells (R81). -/
def writePaletteZero (m : Memory) (v : Byte) : Memory :=
  (((m.write 0x3F00 v).write 0x3F04 v).write 0x3F08 v).write 0x3F0C v

/-- `VWrite(a, v)` (R81). -/
def Gfx.vwrite (mode : NtMirror) (g : Gfx) (a : Word) (v : Byte) : Gfx :=
  { g with
    vram := if isPaletteZero (vnorm mode a) then writePaletteZero g.vram v else g.vram.write (vnorm mode a).toNat v }

/-- Control bits 1:0: the base nametable's address (R330). -/
def Gfx.ntBase (g : Gfx) : Word := 0x2000#16 + 0x0400#16 * zext16 (g.ctrl &&& 0x03#8)

/-- Control bit 2: the VRAM address increment, 1 or 32 (R330). -/
def Gfx.increment (g : Gfx) : Word := if g.ctrl.getLsbD 2 then 32#16 else 1#16

/-- Control bit 4: the background pattern bank (R330). -/
def Gfx.bgBank (g : Gfx) : Word := if g.ctrl.getLsbD 4 then 0x1000#16 else 0x0000#16

/-- Control bit 7: a vblank entry raises NMI (R330). -/
def Gfx.nmiEnabled (g : Gfx) : Bool := g.ctrl.getLsbD 7

/-- Control bit 3: the sprite pattern bank, stored only (R330). -/
def Gfx.spriteBank (g : Gfx) : Word := if g.ctrl.getLsbD 3 then 0x1000#16 else 0x0000#16

/-- Control bit 5: the sprite height, stored only (R330). -/
def Gfx.spriteHeight (g : Gfx) : Nat := if g.ctrl.getLsbD 5 then 16 else 8

/-- The pointer's move after a data access (R337). -/
def Gfx.advancePtr (g : Gfx) : Gfx := { g with ptr := (g.ptr + g.increment) &&& 0x3FFF#16 }

/-- `StatusRead()` (R333): vblank in bit 7, the free value `low7` below it; the address latch is cleared, vblank is not. -/
def Gfx.statusRead (g : Gfx) (low7 : BitVec 7) : Byte × Gfx := (BitVec.ofBool g.vblank ++ low7, { g with w := false })

/-- `DataRead()` (R337): inside palette space the fresh byte, elsewhere the buffered one; the pointer advances either way. -/
def Gfx.dataRead (mode : NtMirror) (g : Gfx) : Byte × Gfx :=
  let a := g.ptr &&& 0x3FFF#16
  if 0x3F00#16 ≤ a then (g.vread mode a, g.advancePtr)
  else (g.buffer, { g with buffer := g.vread mode a }.advancePtr)

/-- `DataWrite(v)` (R337). -/
def Gfx.dataWrite (mode : NtMirror) (g : Gfx) (v : Byte) : Gfx := (g.vwrite mode g.ptr v).advancePtr

/-- `AddrWrite(v)`, the two-write address latch (R336). -/
def Gfx.addrWrite (g : Gfx) (v : Byte) : Gfx :=
  if g.w then { g with ptr := (g.ptr + zext16 v) &&& 0x3FFF#16, w := false }
  else { g with ptr := zext16 v <<< 8, w := true }

/-- `GRegWrite(r, v)` (R335). The status register (offset 2) ignores a write; an OAM-data write does not write `oam`; a scroll write
does not touch `w`. -/
def Gfx.regWrite (mode : NtMirror) (g : Gfx) (r : BitVec 3) (v : Byte) : Gfx :=
  match r.toNat with
  | 0 => { g with ctrl := v }
  | 1 => { g with mask := v }
  | 2 => g
  | 3 => { g with oamAddr := v }
  | 4 => { g with oamDataLast := v }
  | 5 => { g with scrollLast := v }
  | 6 => g.addrWrite v
  | _ => g.dataWrite mode v

/-- `directMemoryAccess(page)` (R338): the 256 bytes of a page into the sprite table. -/
def Gfx.loadOam (g : Gfx) (page : Nat → Byte) : Gfx := { g with oam := Memory.ofFn 256 page }

/-- `Snapshot()` (R322): the selected nametable with its attribute table, and the four background palettes. -/
def Gfx.snapshot (mode : NtMirror) (g : Gfx) : Gfx :=
  { g with
    snapNT := Memory.ofFn 1024 fun i => g.vread mode (g.ntBase + BitVec.ofNat 16 i)
    snapPal := Memory.ofFn 16 fun i => g.vread mode (0x3F00#16 + BitVec.ofNat 16 i) }

/-- The 2-bit attribute-table quadrant selector of a tile cell (R323). -/
def quadrant (row col : Nat) : Nat := (row % 4 / 2) * 2 + col % 4 / 2

/-- The background palette of a tile cell (R323): two bits of its attribute byte. -/
def Gfx.cellPalette (g : Gfx) (row col : Nat) : Nat :=
  (g.snapNT.read (0x3C0 + row / 4 * 8 + col / 4)).toNat / 2 ^ (2 * quadrant row col) % 4

/-- The two-plane pixel value of a tile, bit 7 leftmost (R323): `x` and `y` in 0..7. -/
def Gfx.tilePixel (mode : NtMirror) (g : Gfx) (tile : Byte) (x y : Nat) : Nat :=
  let lo := g.vread mode (g.bgBank + BitVec.ofNat 16 (16 * tile.toNat + y))
  let hi := g.vread mode (g.bgBank + BitVec.ofNat 16 (16 * tile.toNat + 8 + y))
  2 * (hi.getLsbD (7 - x)).toNat + (lo.getLsbD (7 - x)).toNat

/-- One composed pixel (R323): row `py` and column `px` of the 240-row, 256-column frame. -/
def Gfx.pixel (mode : NtMirror) (g : Gfx) (py px : Nat) : Byte :=
  let row := py / 8
  let col := px / 8
  let p := g.tilePixel mode (g.snapNT.read (row * 32 + col)) (px % 8) (py % 8)
  g.snapPal.read (4 * g.cellPalette row col + p)

/-- `Compose()` (R323): the whole frame from the snapshot and the pattern tables as they are now. -/
def Gfx.compose (mode : NtMirror) (g : Gfx) : Gfx :=
  { g with frame := Memory.ofFn 61440 fun i => g.pixel mode (i / 256) (i % 256) }

end Sys2Proof.Machine
end

