-- ==== Sys2Proof/Machine/Ops.lean ====
section
/-! DEFINITION. The shared operations over memory and registers: the bus with its decoder (spec 20_memory R60-R67, R87-R90), the
16-bit reads (00_scope R13), instruction-stream fetch (R14), the stack (46_stack R250, R251), the one interrupt entry that BRK, NMI
and IRQ share (60_exceptions R310) with the return from it beside it (47_control R272), and raising a fatal fault (R300, R302). -/

namespace Sys2Proof.Machine

/-! ### Normalization and the backing store -/

/-- `Norm(a)` (R62): the RAM mirror, the register block, and the half-size image's mirror. -/
def norm (cfg : Config) (a : Word) : Word :=
  if a ≤ 0x1FFF#16 then a &&& 0x07FF#16
  else if a ≤ 0x3FFF#16 then 0x2000#16 + (a &&& 0x0007#16)
  else if 0x8000#16 ≤ a ∧ cfg.prgUnits = .one then 0x8000#16 + (a &&& 0x3FFF#16)
  else a

/-- The index in `mem` that a plain access to a bus address uses: itself in flat mode (D24), `Norm` in nes mode. -/
def busIndex (cfg : Config) (a : Word) : Nat :=
  match cfg.busMode with
  | .flat => a.toNat
  | .nes => (norm cfg a).toNat

/-- The byte of the backing store that a bus address names, read without side effect. -/
def State.byteAt (s : State) (a : Word) : Byte := s.mem.read (busIndex s.cfg a)

/-- Store a byte of the backing store at the index a bus address names. -/
def State.storeByte (s : State) (a : Word) (v : Byte) : State := s.setMem (s.mem.write (busIndex s.cfg a) v)

/-- The address is inside the graphics-register window 0x2000-0x3FFF (R64). -/
def inGfxWindow (a : Word) : Bool := decide (0x2000#16 ≤ a ∧ a ≤ 0x3FFF#16)

/-- The graphics register an address of the window names: `a & 7` (R64). -/
def gfxOffset (a : Word) : BitVec 3 := a.extractLsb' 0 3

/-! ### The devices behind the decoder -/

/-- `GRegRead(r)` (60_exceptions R332-R334, R337), with the free values of a status read and of a write-only register. -/
def gregRead (r : BitVec 3) (s : State) : Byte × State :=
  match r.toNat with
  | 2 =>
    let q := s.gfx.statusRead (Config.statusLow7 s.draws)
    (q.1, (s.setGfx q.2).countDraw)
  | 7 =>
    let q := s.gfx.dataRead s.cfg.ntMirror
    (q.1, s.setGfx q.2)
  | _ => (Config.openReg s.draws, s.countDraw)

/-- `InputWrite(v)` (R88): bit 0 sets the capture mode, and a write of 1 captures the host's buttons, a free value. -/
def inputWrite (v : Byte) (s : State) : State :=
  if v.getLsbD 0 then (s.setInput { capture := true, latch := Config.hostButtons s.draws }).countDraw
  else s.setInput { s.input with capture := false }

/-- `InputRead()` (R89): the next serial bit under the open-bus value 0x40; no shift while capturing. -/
def inputRead (s : State) : Byte × State :=
  let l := s.input
  let shifted := (l.latch >>> 1) ||| (bitByte s.cfg.inputFill <<< 7)
  (0x40#8 ||| (l.latch &&& 0x01#8), if l.capture then s else s.setInput { l with latch := shifted })

/-- `SpriteDMA(v)` (R90): 256 bytes of the backing store, through `Norm`, into the sprite table. -/
def spriteDma (v : Byte) (s : State) : State :=
  s.setGfx (s.gfx.loadOam fun i => s.mem.read (norm s.cfg (mkWord v (BitVec.ofNat 8 i))).toNat)

/-! ### The bus -/

/-- `MemRead(addr, 1)` (R60). -/
def busRead (a : Word) (s : State) : Byte × State :=
  if s.cfg.busMode = .flat then (s.byteAt a, s)
  else if inGfxWindow a then gregRead (gfxOffset a) s
  else if a = 0x4016#16 then inputRead s
  else (s.byteAt a, s)

/-- `MemWrite(addr, 1, v)` (R61). A write to a device does not also store into `mem`. -/
def busWrite (a : Word) (v : Byte) (s : State) : State :=
  if s.cfg.busMode = .flat then s.storeByte a v
  else if inGfxWindow a then s.setGfx (s.gfx.regWrite s.cfg.ntMirror (gfxOffset a) v)
  else if a = 0x4014#16 then spriteDma v s
  else if a = 0x4016#16 then inputWrite v s
  else if 0x8000#16 ≤ a ∧ s.cfg.romWrites = .ignore then s
  else s.storeByte a v

/-- A read of the address is a read of the backing store with no side effect (R66, R67). -/
def plainRead (cfg : Config) (a : Word) : Bool :=
  cfg.busMode == .flat || (!inGfxWindow a && a != 0x4016#16)

/-- A write of the address is a store into the backing store (R61). -/
def plainWrite (cfg : Config) (a : Word) : Bool :=
  cfg.busMode == .flat ||
    (!inGfxWindow a && a != 0x4014#16 && a != 0x4016#16 && !(decide (0x8000#16 ≤ a) && cfg.romWrites == .ignore))

/-- `MemRead16(addr)` (R13): low byte first, the second address wrapping at 64K. -/
def busRead16 (a : Word) (s : State) : Word × State :=
  let lo := busRead a s
  let hi := busRead (a + 1) lo.2
  (mkWord hi.1 lo.1, hi.2)

/-- `MemRead16zp(p)` (R13): low byte first, the second address wrapping inside page zero. -/
def busRead16zp (p : Byte) (s : State) : Word × State :=
  let lo := busRead (zext16 p) s
  let hi := busRead (zext16 (p + 1)) lo.2
  (mkWord hi.1 lo.1, hi.2)

/-- The pointer read of JMP absolute-indirect (40_addressing R142): the high byte comes from the same page. -/
def busRead16page (ptr : Word) (s : State) : Word × State :=
  let lo := busRead ptr s
  let hi := busRead (mkWord (hiByte ptr) (loByte ptr + 1)) lo.2
  (mkWord hi.1 lo.1, hi.2)

/-- `Fetch8()` (R14). -/
def fetch8 (s : State) : Byte × State :=
  let r := busRead s.cpu.pc s
  (r.1, r.2.setPc (r.2.cpu.pc + 1))

/-! ### The stack -/

/-- The bus address the stack pointer designates (R24). -/
def stackAddr (sp : Byte) : Word := 0x0100#16 + zext16 sp

/-- `Push(v)` (R250). -/
def push (v : Byte) (s : State) : State :=
  let t := busWrite (stackAddr s.cpu.s) v s
  t.setS (t.cpu.s - 1)

/-- `Pull()` (R251). -/
def pull (s : State) : Byte × State :=
  let t := s.setS (s.cpu.s + 1)
  busRead (stackAddr t.cpu.s) t

/-- Push a 16-bit value, high byte first (R68). -/
def push16 (w : Word) (s : State) : State := push (loByte w) (push (hiByte w) s)

/-- Pull a 16-bit value, low byte first. -/
def pull16 (s : State) : Word × State :=
  let lo := pull s
  let hi := pull lo.2
  (mkWord hi.1 lo.1, hi.2)

/-! ### Taking an interrupt and returning from one -/

/-- The vectors (R8, R310, 70_reset R400). -/
def nmiVector : Word := 0xFFFA#16

/-- The reset vector. -/
def resetVector : Word := 0xFFFC#16

/-- The vector BRK and IRQ share. -/
def irqVector : Word := 0xFFFE#16

/-- The status byte an entry pushes (R310): BRK forces B in the pushed copy, NMI and IRQ push the live flags. -/
def pushedStatus (p : Flags) (brk : Bool) : Byte := if brk then p.pushedByBreak else p.asByte

/-- `InterruptEntry(vec, brk)` (R310): push PC and status, set I, load PC from the vector. D and the live B are unchanged. -/
def interruptEntry (vec : Word) (brk : Bool) (s : State) : State :=
  let t := push (pushedStatus s.cpu.p brk) (push16 s.cpu.pc s)
  let r := busRead16 vec (t.setP { t.cpu.p with i := true })
  r.2.setPc r.1

/-- The pull of the status byte by PLP and RTI (R255, R272): every flag but B. -/
def pullStatus (s : State) : State :=
  let r := pull s
  r.2.setP (r.2.cpu.p.pulled r.1)

/-- The return from an interrupt (R272, R313): status, then PC, with no +1. -/
def interruptReturn (s : State) : State :=
  let r := pull16 (pullStatus s)
  r.2.setPc r.1

/-! ### Fatal faults -/

/-- The register snapshot of a fault record (R302). -/
def State.snapshot (s : State) : Snapshot :=
  { a := s.cpu.a, x := s.cpu.x, y := s.cpu.y, s := s.cpu.s, pc := s.cpu.pc, p := s.cpu.p.asByte, cycles := s.cycles }

/-- `raise Fatal(kind, info)` for a fetched opcode (R300, R302): nothing but the fault record is written. -/
def raiseFatal (kind : FaultKind) (opcode : Byte) (addr : Word) (s : State) : State :=
  s.setFault (some (kind.record { opcode := opcode, addr := addr, snapshot := s.snapshot }))

end Sys2Proof.Machine
end

