-- ==== Sys2Proof/Machine/Interrupts.lean ====
section
/-! DEFINITION. The processor's entry points other than its instructions: NMI and IRQ over the shared entry of Machine/Ops.lean (spec
60_exceptions R311, R312) and the CPU reset (70_reset R400). -/

namespace Sys2Proof.Machine

/-- `NMIEntry()` (R311): never masked. -/
def nmiEntry (s : State) : State :=
  if s.fault.isSome then s else addCycles intCycles (interruptEntry nmiVector false s)

/-- `IRQEntry()` (R312): a request made while I is set is dropped. -/
def irqEntry (s : State) : State :=
  if s.fault.isSome then s
  else if s.cpu.p.i then s
  else addCycles intCycles (interruptEntry irqVector false s)

/-- `reset()` (R400): the processor's registers and flags, and PC from the vector; nothing else changes and no cycle passes (log
8). -/
def resetCpu (s : State) : State :=
  if s.fault.isSome then s
  else
    let t := ((((s.setA 0x00#8).setX 0x00#8).setY 0x00#8).setS 0xFD#8).setP Flags.reset
    let r := busRead16 resetVector t
    r.2.setPc r.1

end Sys2Proof.Machine
end

