-- ==== Sys2Proof/Machine/HostMoves.lean ====
section
/-! DEFINITION. The host's moves on the block, made between orchestrator steps (spec 60_exceptions R343-R345). -/

namespace Sys2Proof.Machine

/-- The effect of a host move (R343). None acts on a faulted machine's registers (R300); `proceed` and `stop` are no effect on the
block: the step reads them. -/
def hostMove (m : HostMove) (s : State) : State :=
  match m with
  | .proceed => s
  | .reset => resetCpu s
  | .nmi => nmiEntry s
  | .irq => irqEntry s
  | .toggleHalt => s.setHalted (!s.halted)
  | .stop => s

end Sys2Proof.Machine
end

