-- ==== Sys2Proof/Syntax.lean ====
section
/-! DEFINITION. The instruction set: one constructor for each of the 151 rows of the opcode map (spec 30_encoding R106,
opcode_table.json), in opcode order, carrying the row's operand as decoded (R111): `v` an immediate byte, `a` a zero-page byte,
`w` a 16-bit operand (low byte first in the stream), `d` a branch displacement byte. -/

namespace Sys2Proof

/-- One row of the opcode map with its operand. Suffixes name the addressing mode: Imm, Zp, ZpX, ZpY, Abs, AbsX, AbsY, IndX for
`($nn,X)`, IndY for `($nn),Y`, Ind for `($nnnn)`, Acc for the accumulator; implied and relative rows and JSR have none. -/
inductive Instr where
  /-- 0x00 BRK (R273) -/
  | brk
  /-- 0x01 ORA (a,X) (R191) -/
  | oraIndX (a : Byte)
  /-- 0x05 ORA a (R191) -/
  | oraZp (a : Byte)
  /-- 0x06 ASL a (R201) -/
  | aslZp (a : Byte)
  /-- 0x08 PHP (R253) -/
  | php
  /-- 0x09 ORA #v (R191) -/
  | oraImm (v : Byte)
  /-- 0x0A ASL A (R201) -/
  | aslAcc
  /-- 0x0D ORA w (R191) -/
  | oraAbs (w : Word)
  /-- 0x0E ASL w (R201) -/
  | aslAbs (w : Word)
  /-- 0x10 BPL d (R261) -/
  | bpl (d : Byte)
  /-- 0x11 ORA (a),Y (R191) -/
  | oraIndY (a : Byte)
  /-- 0x15 ORA a,X (R191) -/
  | oraZpX (a : Byte)
  /-- 0x16 ASL a,X (R201) -/
  | aslZpX (a : Byte)
  /-- 0x18 CLC (R154) -/
  | clc
  /-- 0x19 ORA w,Y (R191) -/
  | oraAbsY (w : Word)
  /-- 0x1D ORA w,X (R191) -/
  | oraAbsX (w : Word)
  /-- 0x1E ASL w,X (R201) -/
  | aslAbsX (w : Word)
  /-- 0x20 JSR w (R270) -/
  | jsr (w : Word)
  /-- 0x21 AND (a,X) (R190) -/
  | andIndX (a : Byte)
  /-- 0x24 BIT a (R193) -/
  | bitZp (a : Byte)
  /-- 0x25 AND a (R190) -/
  | andZp (a : Byte)
  /-- 0x26 ROL a (R203) -/
  | rolZp (a : Byte)
  /-- 0x28 PLP (R255) -/
  | plp
  /-- 0x29 AND #v (R190) -/
  | andImm (v : Byte)
  /-- 0x2A ROL A (R203) -/
  | rolAcc
  /-- 0x2C BIT w (R193) -/
  | bitAbs (w : Word)
  /-- 0x2D AND w (R190) -/
  | andAbs (w : Word)
  /-- 0x2E ROL w (R203) -/
  | rolAbs (w : Word)
  /-- 0x30 BMI d (R262) -/
  | bmi (d : Byte)
  /-- 0x31 AND (a),Y (R190) -/
  | andIndY (a : Byte)
  /-- 0x35 AND a,X (R190) -/
  | andZpX (a : Byte)
  /-- 0x36 ROL a,X (R203) -/
  | rolZpX (a : Byte)
  /-- 0x38 SEC (R155) -/
  | sec
  /-- 0x39 AND w,Y (R190) -/
  | andAbsY (w : Word)
  /-- 0x3D AND w,X (R190) -/
  | andAbsX (w : Word)
  /-- 0x3E ROL w,X (R203) -/
  | rolAbsX (w : Word)
  /-- 0x40 RTI (R272) -/
  | rti
  /-- 0x41 EOR (a,X) (R192) -/
  | eorIndX (a : Byte)
  /-- 0x45 EOR a (R192) -/
  | eorZp (a : Byte)
  /-- 0x46 LSR a (R202) -/
  | lsrZp (a : Byte)
  /-- 0x48 PHA (R252) -/
  | pha
  /-- 0x49 EOR #v (R192) -/
  | eorImm (v : Byte)
  /-- 0x4A LSR A (R202) -/
  | lsrAcc
  /-- 0x4C JMP w (R269) -/
  | jmpAbs (w : Word)
  /-- 0x4D EOR w (R192) -/
  | eorAbs (w : Word)
  /-- 0x4E LSR w (R202) -/
  | lsrAbs (w : Word)
  /-- 0x50 BVC d (R263) -/
  | bvc (d : Byte)
  /-- 0x51 EOR (a),Y (R192) -/
  | eorIndY (a : Byte)
  /-- 0x55 EOR a,X (R192) -/
  | eorZpX (a : Byte)
  /-- 0x56 LSR a,X (R202) -/
  | lsrZpX (a : Byte)
  /-- 0x58 CLI (R156) -/
  | cli
  /-- 0x59 EOR w,Y (R192) -/
  | eorAbsY (w : Word)
  /-- 0x5D EOR w,X (R192) -/
  | eorAbsX (w : Word)
  /-- 0x5E LSR w,X (R202) -/
  | lsrAbsX (w : Word)
  /-- 0x60 RTS (R271) -/
  | rts
  /-- 0x61 ADC (a,X) (R171) -/
  | adcIndX (a : Byte)
  /-- 0x65 ADC a (R171) -/
  | adcZp (a : Byte)
  /-- 0x66 ROR a (R204) -/
  | rorZp (a : Byte)
  /-- 0x68 PLA (R254) -/
  | pla
  /-- 0x69 ADC #v (R171) -/
  | adcImm (v : Byte)
  /-- 0x6A ROR A (R204) -/
  | rorAcc
  /-- 0x6C JMP (w) (R269) -/
  | jmpInd (w : Word)
  /-- 0x6D ADC w (R171) -/
  | adcAbs (w : Word)
  /-- 0x6E ROR w (R204) -/
  | rorAbs (w : Word)
  /-- 0x70 BVS d (R264) -/
  | bvs (d : Byte)
  /-- 0x71 ADC (a),Y (R171) -/
  | adcIndY (a : Byte)
  /-- 0x75 ADC a,X (R171) -/
  | adcZpX (a : Byte)
  /-- 0x76 ROR a,X (R204) -/
  | rorZpX (a : Byte)
  /-- 0x78 SEI (R157) -/
  | sei
  /-- 0x79 ADC w,Y (R171) -/
  | adcAbsY (w : Word)
  /-- 0x7D ADC w,X (R171) -/
  | adcAbsX (w : Word)
  /-- 0x7E ROR w,X (R204) -/
  | rorAbsX (w : Word)
  /-- 0x81 STA (a,X) (R223) -/
  | staIndX (a : Byte)
  /-- 0x84 STY a (R225) -/
  | styZp (a : Byte)
  /-- 0x85 STA a (R223) -/
  | staZp (a : Byte)
  /-- 0x86 STX a (R224) -/
  | stxZp (a : Byte)
  /-- 0x88 DEY (R235) -/
  | dey
  /-- 0x8A TXA (R228) -/
  | txa
  /-- 0x8C STY w (R225) -/
  | styAbs (w : Word)
  /-- 0x8D STA w (R223) -/
  | staAbs (w : Word)
  /-- 0x8E STX w (R224) -/
  | stxAbs (w : Word)
  /-- 0x90 BCC d (R265) -/
  | bcc (d : Byte)
  /-- 0x91 STA (a),Y (R223) -/
  | staIndY (a : Byte)
  /-- 0x94 STY a,X (R225) -/
  | styZpX (a : Byte)
  /-- 0x95 STA a,X (R223) -/
  | staZpX (a : Byte)
  /-- 0x96 STX a,Y (R224) -/
  | stxZpY (a : Byte)
  /-- 0x98 TYA (R229) -/
  | tya
  /-- 0x99 STA w,Y (R223) -/
  | staAbsY (w : Word)
  /-- 0x9A TXS (R231) -/
  | txs
  /-- 0x9D STA w,X (R223) -/
  | staAbsX (w : Word)
  /-- 0xA0 LDY #v (R222) -/
  | ldyImm (v : Byte)
  /-- 0xA1 LDA (a,X) (R220) -/
  | ldaIndX (a : Byte)
  /-- 0xA2 LDX #v (R221) -/
  | ldxImm (v : Byte)
  /-- 0xA4 LDY a (R222) -/
  | ldyZp (a : Byte)
  /-- 0xA5 LDA a (R220) -/
  | ldaZp (a : Byte)
  /-- 0xA6 LDX a (R221) -/
  | ldxZp (a : Byte)
  /-- 0xA8 TAY (R227) -/
  | tay
  /-- 0xA9 LDA #v (R220) -/
  | ldaImm (v : Byte)
  /-- 0xAA TAX (R226) -/
  | tax
  /-- 0xAC LDY w (R222) -/
  | ldyAbs (w : Word)
  /-- 0xAD LDA w (R220) -/
  | ldaAbs (w : Word)
  /-- 0xAE LDX w (R221) -/
  | ldxAbs (w : Word)
  /-- 0xB0 BCS d (R266) -/
  | bcs (d : Byte)
  /-- 0xB1 LDA (a),Y (R220) -/
  | ldaIndY (a : Byte)
  /-- 0xB4 LDY a,X (R222) -/
  | ldyZpX (a : Byte)
  /-- 0xB5 LDA a,X (R220) -/
  | ldaZpX (a : Byte)
  /-- 0xB6 LDX a,Y (R221) -/
  | ldxZpY (a : Byte)
  /-- 0xB8 CLV (R158) -/
  | clv
  /-- 0xB9 LDA w,Y (R220) -/
  | ldaAbsY (w : Word)
  /-- 0xBA TSX (R230) -/
  | tsx
  /-- 0xBC LDY w,X (R222) -/
  | ldyAbsX (w : Word)
  /-- 0xBD LDA w,X (R220) -/
  | ldaAbsX (w : Word)
  /-- 0xBE LDX w,Y (R221) -/
  | ldxAbsY (w : Word)
  /-- 0xC0 CPY #v (R176) -/
  | cpyImm (v : Byte)
  /-- 0xC1 CMP (a,X) (R174) -/
  | cmpIndX (a : Byte)
  /-- 0xC4 CPY a (R176) -/
  | cpyZp (a : Byte)
  /-- 0xC5 CMP a (R174) -/
  | cmpZp (a : Byte)
  /-- 0xC6 DEC a (R206) -/
  | decZp (a : Byte)
  /-- 0xC8 INY (R233) -/
  | iny
  /-- 0xC9 CMP #v (R174) -/
  | cmpImm (v : Byte)
  /-- 0xCA DEX (R234) -/
  | dex
  /-- 0xCC CPY w (R176) -/
  | cpyAbs (w : Word)
  /-- 0xCD CMP w (R174) -/
  | cmpAbs (w : Word)
  /-- 0xCE DEC w (R206) -/
  | decAbs (w : Word)
  /-- 0xD0 BNE d (R267) -/
  | bne (d : Byte)
  /-- 0xD1 CMP (a),Y (R174) -/
  | cmpIndY (a : Byte)
  /-- 0xD5 CMP a,X (R174) -/
  | cmpZpX (a : Byte)
  /-- 0xD6 DEC a,X (R206) -/
  | decZpX (a : Byte)
  /-- 0xD8 CLD (R159) -/
  | cld
  /-- 0xD9 CMP w,Y (R174) -/
  | cmpAbsY (w : Word)
  /-- 0xDD CMP w,X (R174) -/
  | cmpAbsX (w : Word)
  /-- 0xDE DEC w,X (R206) -/
  | decAbsX (w : Word)
  /-- 0xE0 CPX #v (R175) -/
  | cpxImm (v : Byte)
  /-- 0xE1 SBC (a,X) (R172) -/
  | sbcIndX (a : Byte)
  /-- 0xE4 CPX a (R175) -/
  | cpxZp (a : Byte)
  /-- 0xE5 SBC a (R172) -/
  | sbcZp (a : Byte)
  /-- 0xE6 INC a (R205) -/
  | incZp (a : Byte)
  /-- 0xE8 INX (R232) -/
  | inx
  /-- 0xE9 SBC #v (R172) -/
  | sbcImm (v : Byte)
  /-- 0xEA NOP (R236) -/
  | nop
  /-- 0xEC CPX w (R175) -/
  | cpxAbs (w : Word)
  /-- 0xED SBC w (R172) -/
  | sbcAbs (w : Word)
  /-- 0xEE INC w (R205) -/
  | incAbs (w : Word)
  /-- 0xF0 BEQ d (R268) -/
  | beq (d : Byte)
  /-- 0xF1 SBC (a),Y (R172) -/
  | sbcIndY (a : Byte)
  /-- 0xF5 SBC a,X (R172) -/
  | sbcZpX (a : Byte)
  /-- 0xF6 INC a,X (R205) -/
  | incZpX (a : Byte)
  /-- 0xF8 SED (R160) -/
  | sed
  /-- 0xF9 SBC w,Y (R172) -/
  | sbcAbsY (w : Word)
  /-- 0xFD SBC w,X (R172) -/
  | sbcAbsX (w : Word)
  /-- 0xFE INC w,X (R205) -/
  | incAbsX (w : Word)
  deriving DecidableEq, Repr

end Sys2Proof
end

