-- ==== Sys2Proof/WellFormed.lean ====
section
/-! DEFINITION. Mnemonic and addressing mode apart: `Op` pairs each of the 56 mnemonics with an operand of its kind, whether or not
the hardware has that pair, and `Op.wellFormed` says which pairs the opcode map defines (spec 30_encoding R101, R103, R106).
`Instr.op` reads a table row as such a pair; a row is always well formed, and no operand value is reserved (R105). -/

namespace Sys2Proof

/-- The addressing modes that yield an address (40_addressing R133-R138). -/
inductive MemMode where
  | zeroPage (a : Byte)
  | zeroPageX (a : Byte)
  | zeroPageY (a : Byte)
  | absolute (w : Word)
  | absoluteX (w : Word)
  | absoluteY (w : Word)
  | indirectX (a : Byte)
  | indirectY (a : Byte)
  deriving DecidableEq, Repr

/-- An operand that is read (R131): the immediate byte (R132) or a byte of memory. -/
inductive Src where
  | immediate (v : Byte)
  | memory (m : MemMode)
  deriving DecidableEq, Repr

/-- What a shift or rotate reads and writes back (44_shift_rmw R200): the accumulator (R139) or a byte of memory. -/
inductive RmwTarget where
  | accumulator
  | memory (m : MemMode)
  deriving DecidableEq, Repr

/-- A mnemonic with an operand. Branches carry their displacement byte (R141); `jmpIndirect` is JMP in absolute-indirect mode (R142). -/
inductive Op where
  | adc (o : Src) | sbc (o : Src) | and (o : Src) | ora (o : Src) | eor (o : Src)
  | cmp (o : Src) | cpx (o : Src) | cpy (o : Src)
  | lda (o : Src) | ldx (o : Src) | ldy (o : Src)
  | bit (m : MemMode) | sta (m : MemMode) | stx (m : MemMode) | sty (m : MemMode)
  | inc (m : MemMode) | dec (m : MemMode)
  | asl (t : RmwTarget) | lsr (t : RmwTarget) | rol (t : RmwTarget) | ror (t : RmwTarget)
  | bpl (d : Byte) | bmi (d : Byte) | bvc (d : Byte) | bvs (d : Byte)
  | bcc (d : Byte) | bcs (d : Byte) | bne (d : Byte) | beq (d : Byte)
  | jmp (w : Word) | jmpIndirect (w : Word) | jsr (w : Word)
  | rts | rti | brk
  | pha | php | pla | plp
  | clc | cld | cli | clv | sec | sed | sei
  | tax | tay | txa | tya | tsx | txs
  | inx | iny | dex | dey | nop
  deriving DecidableEq, Repr

/-- Group 01 reads and writes memory in seven modes, zero-page-Y not among them (R103). -/
def MemMode.group01 : MemMode → Bool
  | .zeroPage _ | .zeroPageX _ | .absolute _ | .absoluteX _ | .absoluteY _ | .indirectX _ | .indirectY _ => true
  | .zeroPageY _ => false

/-- Group 10's shifts, INC and DEC, and LDY: zero-page, zero-page-X, absolute, absolute-X (R103). -/
def MemMode.indexedByX : MemMode → Bool
  | .zeroPage _ | .zeroPageX _ | .absolute _ | .absoluteX _ => true
  | .zeroPageY _ | .absoluteY _ | .indirectX _ | .indirectY _ => false

/-- LDX: zero-page-X reads as zero-page-Y and absolute-X as absolute-Y (R103). -/
def MemMode.indexedByY : MemMode → Bool
  | .zeroPage _ | .zeroPageY _ | .absolute _ | .absoluteY _ => true
  | .zeroPageX _ | .absoluteX _ | .indirectX _ | .indirectY _ => false

/-- BIT, CPX and CPY: zero-page and absolute (R103). -/
def MemMode.unindexed : MemMode → Bool
  | .zeroPage _ | .absolute _ => true
  | .zeroPageX _ | .zeroPageY _ | .absoluteX _ | .absoluteY _ | .indirectX _ | .indirectY _ => false

/-- STX: zero-page, zero-page-Y, absolute (R103, R224). -/
def MemMode.storesX : MemMode → Bool
  | .zeroPage _ | .zeroPageY _ | .absolute _ => true
  | .zeroPageX _ | .absoluteX _ | .absoluteY _ | .indirectX _ | .indirectY _ => false

/-- STY: zero-page, zero-page-X, absolute (R103, R225). -/
def MemMode.storesY : MemMode → Bool
  | .zeroPage _ | .zeroPageX _ | .absolute _ => true
  | .zeroPageY _ | .absoluteX _ | .absoluteY _ | .indirectX _ | .indirectY _ => false

/-- An immediate operand, or a memory operand in one of the modes `ok` allows. -/
def Src.allowed (ok : MemMode → Bool) : Src → Bool
  | .immediate _ => true
  | .memory m => ok m

/-- The accumulator, or a memory operand in one of the modes `ok` allows. -/
def RmwTarget.allowed (ok : MemMode → Bool) : RmwTarget → Bool
  | .accumulator => true
  | .memory m => ok m

/-- The opcode map has a row for this mnemonic in this mode (R103, R106). -/
def Op.wellFormed : Op → Bool
  | .adc o | .sbc o | .and o | .ora o | .eor o | .cmp o | .lda o => o.allowed MemMode.group01
  | .cpx o | .cpy o => o.allowed MemMode.unindexed
  | .ldx o => o.allowed MemMode.indexedByY
  | .ldy o => o.allowed MemMode.indexedByX
  | .bit m => m.unindexed
  | .sta m => m.group01
  | .stx m => m.storesX
  | .sty m => m.storesY
  | .inc m | .dec m => m.indexedByX
  | .asl t | .lsr t | .rol t | .ror t => t.allowed MemMode.indexedByX
  | .bpl _ | .bmi _ | .bvc _ | .bvs _ | .bcc _ | .bcs _ | .bne _ | .beq _ => true
  | .jmp _ | .jmpIndirect _ | .jsr _ => true
  | .rts | .rti | .brk | .pha | .php | .pla | .plp => true
  | .clc | .cld | .cli | .clv | .sec | .sed | .sei => true
  | .tax | .tay | .txa | .tya | .tsx | .txs | .inx | .iny | .dex | .dey | .nop => true

/-- The mnemonic and operand of a row (the mnemonic and mode columns of R106). -/
def Instr.op : Instr → Op
  | .brk => .brk
  | .oraIndX a => .ora (.memory (.indirectX a))
  | .oraZp a => .ora (.memory (.zeroPage a))
  | .aslZp a => .asl (.memory (.zeroPage a))
  | .php => .php
  | .oraImm v => .ora (.immediate v)
  | .aslAcc => .asl .accumulator
  | .oraAbs w => .ora (.memory (.absolute w))
  | .aslAbs w => .asl (.memory (.absolute w))
  | .bpl d => .bpl d
  | .oraIndY a => .ora (.memory (.indirectY a))
  | .oraZpX a => .ora (.memory (.zeroPageX a))
  | .aslZpX a => .asl (.memory (.zeroPageX a))
  | .clc => .clc
  | .oraAbsY w => .ora (.memory (.absoluteY w))
  | .oraAbsX w => .ora (.memory (.absoluteX w))
  | .aslAbsX w => .asl (.memory (.absoluteX w))
  | .jsr w => .jsr w
  | .andIndX a => .and (.memory (.indirectX a))
  | .bitZp a => .bit (.zeroPage a)
  | .andZp a => .and (.memory (.zeroPage a))
  | .rolZp a => .rol (.memory (.zeroPage a))
  | .plp => .plp
  | .andImm v => .and (.immediate v)
  | .rolAcc => .rol .accumulator
  | .bitAbs w => .bit (.absolute w)
  | .andAbs w => .and (.memory (.absolute w))
  | .rolAbs w => .rol (.memory (.absolute w))
  | .bmi d => .bmi d
  | .andIndY a => .and (.memory (.indirectY a))
  | .andZpX a => .and (.memory (.zeroPageX a))
  | .rolZpX a => .rol (.memory (.zeroPageX a))
  | .sec => .sec
  | .andAbsY w => .and (.memory (.absoluteY w))
  | .andAbsX w => .and (.memory (.absoluteX w))
  | .rolAbsX w => .rol (.memory (.absoluteX w))
  | .rti => .rti
  | .eorIndX a => .eor (.memory (.indirectX a))
  | .eorZp a => .eor (.memory (.zeroPage a))
  | .lsrZp a => .lsr (.memory (.zeroPage a))
  | .pha => .pha
  | .eorImm v => .eor (.immediate v)
  | .lsrAcc => .lsr .accumulator
  | .jmpAbs w => .jmp w
  | .eorAbs w => .eor (.memory (.absolute w))
  | .lsrAbs w => .lsr (.memory (.absolute w))
  | .bvc d => .bvc d
  | .eorIndY a => .eor (.memory (.indirectY a))
  | .eorZpX a => .eor (.memory (.zeroPageX a))
  | .lsrZpX a => .lsr (.memory (.zeroPageX a))
  | .cli => .cli
  | .eorAbsY w => .eor (.memory (.absoluteY w))
  | .eorAbsX w => .eor (.memory (.absoluteX w))
  | .lsrAbsX w => .lsr (.memory (.absoluteX w))
  | .rts => .rts
  | .adcIndX a => .adc (.memory (.indirectX a))
  | .adcZp a => .adc (.memory (.zeroPage a))
  | .rorZp a => .ror (.memory (.zeroPage a))
  | .pla => .pla
  | .adcImm v => .adc (.immediate v)
  | .rorAcc => .ror .accumulator
  | .jmpInd w => .jmpIndirect w
  | .adcAbs w => .adc (.memory (.absolute w))
  | .rorAbs w => .ror (.memory (.absolute w))
  | .bvs d => .bvs d
  | .adcIndY a => .adc (.memory (.indirectY a))
  | .adcZpX a => .adc (.memory (.zeroPageX a))
  | .rorZpX a => .ror (.memory (.zeroPageX a))
  | .sei => .sei
  | .adcAbsY w => .adc (.memory (.absoluteY w))
  | .adcAbsX w => .adc (.memory (.absoluteX w))
  | .rorAbsX w => .ror (.memory (.absoluteX w))
  | .staIndX a => .sta (.indirectX a)
  | .styZp a => .sty (.zeroPage a)
  | .staZp a => .sta (.zeroPage a)
  | .stxZp a => .stx (.zeroPage a)
  | .dey => .dey
  | .txa => .txa
  | .styAbs w => .sty (.absolute w)
  | .staAbs w => .sta (.absolute w)
  | .stxAbs w => .stx (.absolute w)
  | .bcc d => .bcc d
  | .staIndY a => .sta (.indirectY a)
  | .styZpX a => .sty (.zeroPageX a)
  | .staZpX a => .sta (.zeroPageX a)
  | .stxZpY a => .stx (.zeroPageY a)
  | .tya => .tya
  | .staAbsY w => .sta (.absoluteY w)
  | .txs => .txs
  | .staAbsX w => .sta (.absoluteX w)
  | .ldyImm v => .ldy (.immediate v)
  | .ldaIndX a => .lda (.memory (.indirectX a))
  | .ldxImm v => .ldx (.immediate v)
  | .ldyZp a => .ldy (.memory (.zeroPage a))
  | .ldaZp a => .lda (.memory (.zeroPage a))
  | .ldxZp a => .ldx (.memory (.zeroPage a))
  | .tay => .tay
  | .ldaImm v => .lda (.immediate v)
  | .tax => .tax
  | .ldyAbs w => .ldy (.memory (.absolute w))
  | .ldaAbs w => .lda (.memory (.absolute w))
  | .ldxAbs w => .ldx (.memory (.absolute w))
  | .bcs d => .bcs d
  | .ldaIndY a => .lda (.memory (.indirectY a))
  | .ldyZpX a => .ldy (.memory (.zeroPageX a))
  | .ldaZpX a => .lda (.memory (.zeroPageX a))
  | .ldxZpY a => .ldx (.memory (.zeroPageY a))
  | .clv => .clv
  | .ldaAbsY w => .lda (.memory (.absoluteY w))
  | .tsx => .tsx
  | .ldyAbsX w => .ldy (.memory (.absoluteX w))
  | .ldaAbsX w => .lda (.memory (.absoluteX w))
  | .ldxAbsY w => .ldx (.memory (.absoluteY w))
  | .cpyImm v => .cpy (.immediate v)
  | .cmpIndX a => .cmp (.memory (.indirectX a))
  | .cpyZp a => .cpy (.memory (.zeroPage a))
  | .cmpZp a => .cmp (.memory (.zeroPage a))
  | .decZp a => .dec (.zeroPage a)
  | .iny => .iny
  | .cmpImm v => .cmp (.immediate v)
  | .dex => .dex
  | .cpyAbs w => .cpy (.memory (.absolute w))
  | .cmpAbs w => .cmp (.memory (.absolute w))
  | .decAbs w => .dec (.absolute w)
  | .bne d => .bne d
  | .cmpIndY a => .cmp (.memory (.indirectY a))
  | .cmpZpX a => .cmp (.memory (.zeroPageX a))
  | .decZpX a => .dec (.zeroPageX a)
  | .cld => .cld
  | .cmpAbsY w => .cmp (.memory (.absoluteY w))
  | .cmpAbsX w => .cmp (.memory (.absoluteX w))
  | .decAbsX w => .dec (.absoluteX w)
  | .cpxImm v => .cpx (.immediate v)
  | .sbcIndX a => .sbc (.memory (.indirectX a))
  | .cpxZp a => .cpx (.memory (.zeroPage a))
  | .sbcZp a => .sbc (.memory (.zeroPage a))
  | .incZp a => .inc (.zeroPage a)
  | .inx => .inx
  | .sbcImm v => .sbc (.immediate v)
  | .nop => .nop
  | .cpxAbs w => .cpx (.memory (.absolute w))
  | .sbcAbs w => .sbc (.memory (.absolute w))
  | .incAbs w => .inc (.absolute w)
  | .beq d => .beq d
  | .sbcIndY a => .sbc (.memory (.indirectY a))
  | .sbcZpX a => .sbc (.memory (.zeroPageX a))
  | .incZpX a => .inc (.zeroPageX a)
  | .sed => .sed
  | .sbcAbsY w => .sbc (.memory (.absoluteY w))
  | .sbcAbsX w => .sbc (.memory (.absoluteX w))
  | .incAbsX w => .inc (.absoluteX w)

/-- A row's pair of mnemonic and mode is one the opcode map defines. -/
def Instr.wellFormed (i : Instr) : Bool := i.op.wellFormed

end Sys2Proof
end

