-- ==== Sys2Proof/Machine/Operands.lean ====
section
/-! DEFINITION. The addressing resolver (spec 40_addressing): the effective address of every mode that has one, the operand value of
every mode that has one, the branch target and the resolver's failures. An instruction's operand bytes have been consumed when these
run (70_reset R433: operand fetches come before pointer reads), so a mode here carries them. -/

namespace Sys2Proof.Machine

/-- `EA(mode)` (R130, R133-R138), with the pointer reads it makes. -/
def effAddr (m : MemMode) (s : State) : Word × State :=
  match m with
  | .zeroPage a => (zext16 a, s)
  | .zeroPageX a => (zext16 (a + s.cpu.x), s)
  | .zeroPageY a => (zext16 (a + s.cpu.y), s)
  | .absolute w => (w, s)
  | .absoluteX w => (w + zext16 s.cpu.x, s)
  | .absoluteY w => (w + zext16 s.cpu.y, s)
  | .indirectX a => busRead16zp (a + s.cpu.x) s
  | .indirectY a =>
    let r := busRead16zp a s
    (r.1 + zext16 r.2.cpu.y, r.2)

/-- Read the byte a memory mode addresses (R131). -/
def readMem (m : MemMode) (s : State) : Byte × State :=
  let e := effAddr m s
  busRead e.1 e.2

/-- `Operand(mode)` (R131, R132): the immediate byte, or the byte a memory mode addresses. -/
def readSrc (o : Src) (s : State) : Byte × State :=
  match o with
  | .immediate v => (v, s)
  | .memory m => readMem m s

/-- A store (R223-R225): compute the address and write it, without reading the target (R144). -/
def storeTo (m : MemMode) (v : Byte) (s : State) : State :=
  let e := effAddr m s
  busWrite e.1 v e.2

/-- `RMW(mode, f)` on a byte of memory (44_shift_rmw R200): one read and one write at the same address, then C and the result
flags. -/
def rmwMem (m : MemMode) (f : Byte → Bool → Byte × Bool) (s : State) : State :=
  let e := effAddr m s
  let v := busRead e.1 e.2
  let r := f v.1 v.2.cpu.p.c
  let t := busWrite e.1 r.1 v.2
  t.setP ({ t.cpu.p with c := r.2 }.setNZ r.1)

/-- `RMW(accumulator, f)` (R200). -/
def rmwAcc (f : Byte → Bool → Byte × Bool) (s : State) : State :=
  let r := f s.cpu.a s.cpu.p.c
  (s.setA r.1).setP ({ s.cpu.p with c := r.2 }.setNZ r.1)

/-- `RMW(mode, f)` (R200). -/
def rmw (t : RmwTarget) (f : Byte → Bool → Byte × Bool) (s : State) : State :=
  match t with
  | .accumulator => rmwAcc f s
  | .memory m => rmwMem m f s

/-- The relative mode's target (R141): PC already holds the address of the next instruction. -/
def branchTarget (pc : Word) (d : Byte) : Word := pc + sext16 d

/-- The 13 addressing modes by name (R145). -/
inductive ModeName where
  | implied
  | accumulator
  | immediate
  | zeroPage
  | zeroPageX
  | zeroPageY
  | absolute
  | absoluteX
  | absoluteY
  | indirectX
  | indirectY
  | relative
  | absoluteIndirect
  deriving DecidableEq, Repr

/-- What `EA(mode)` raises for a mode that yields no address (R143): immediate and accumulator raise `noAddress`; a mode outside the
resolver's set raises `unsupportedMode`, which no opcode reaches. -/
def resolverFailure (m : ModeName) : Option FaultKind :=
  match m with
  | .immediate | .accumulator => some .noAddress
  | .implied | .relative | .absoluteIndirect => some .unsupportedMode
  | .zeroPage | .zeroPageX | .zeroPageY | .absolute | .absoluteX | .absoluteY | .indirectX | .indirectY => none

end Sys2Proof.Machine
end

