-- ==== Sys2Proof/Machine/Arith.lean ====
section
/-! DEFINITION. The adder (spec 42_arith): ADC and SBC over one add core, CMP, CPX and CPY over one compare core. One definition per row of the opcode map. -/

namespace Sys2Proof.Machine

/-- `AddCore(m)` on the machine (R170): A receives the sum, P its flags; V and C are computed from A before the write. -/
def addToA (m : Byte) (s : State) : State :=
  (s.setA (addResult s.cpu.a m s.cpu.p.c)).setP (s.cpu.p.addCore s.cpu.a m)

/-- ADC (R171). -/
def adc (o : Src) (s : State) : State :=
  let r := readSrc o s
  addToA r.1 r.2

/-- SBC (R172): the add core on the operand's complement. -/
def sbc (o : Src) (s : State) : State :=
  let r := readSrc o s
  addToA (~~~r.1) r.2

/-- CMP (R174). -/
def cmp (o : Src) (s : State) : State :=
  let r := readSrc o s
  r.2.setP (r.2.cpu.p.compare r.2.cpu.a r.1)

/-- CPX (R175). -/
def cpx (o : Src) (s : State) : State :=
  let r := readSrc o s
  r.2.setP (r.2.cpu.p.compare r.2.cpu.x r.1)

/-- CPY (R176). -/
def cpy (o : Src) (s : State) : State :=
  let r := readSrc o s
  r.2.setP (r.2.cpu.p.compare r.2.cpu.y r.1)

/-- ADC (a,X), 0x61 (R171). -/
def execAdcIndX (a : Byte) (s : State) : Host.Outcome State Fault Refusal :=
  .next (adc (.memory (.indirectX a)) s)

/-- ADC a, 0x65 (R171). -/
def execAdcZp (a : Byte) (s : State) : Host.Outcome State Fault Refusal :=
  .next (adc (.memory (.zeroPage a)) s)

/-- ADC #v, 0x69 (R171). -/
def execAdcImm (v : Byte) (s : State) : Host.Outcome State Fault Refusal :=
  .next (adc (.immediate v) s)

/-- ADC w, 0x6D (R171). -/
def execAdcAbs (w : Word) (s : State) : Host.Outcome State Fault Refusal :=
  .next (adc (.memory (.absolute w)) s)

/-- ADC (a),Y, 0x71 (R171). -/
def execAdcIndY (a : Byte) (s : State) : Host.Outcome State Fault Refusal :=
  .next (adc (.memory (.indirectY a)) s)

/-- ADC a,X, 0x75 (R171). -/
def execAdcZpX (a : Byte) (s : State) : Host.Outcome State Fault Refusal :=
  .next (adc (.memory (.zeroPageX a)) s)

/-- ADC w,Y, 0x79 (R171). -/
def execAdcAbsY (w : Word) (s : State) : Host.Outcome State Fault Refusal :=
  .next (adc (.memory (.absoluteY w)) s)

/-- ADC w,X, 0x7D (R171). -/
def execAdcAbsX (w : Word) (s : State) : Host.Outcome State Fault Refusal :=
  .next (adc (.memory (.absoluteX w)) s)

/-- SBC (a,X), 0xE1 (R172). -/
def execSbcIndX (a : Byte) (s : State) : Host.Outcome State Fault Refusal :=
  .next (sbc (.memory (.indirectX a)) s)

/-- SBC a, 0xE5 (R172). -/
def execSbcZp (a : Byte) (s : State) : Host.Outcome State Fault Refusal :=
  .next (sbc (.memory (.zeroPage a)) s)

/-- SBC #v, 0xE9 (R172). -/
def execSbcImm (v : Byte) (s : State) : Host.Outcome State Fault Refusal :=
  .next (sbc (.immediate v) s)

/-- SBC w, 0xED (R172). -/
def execSbcAbs (w : Word) (s : State) : Host.Outcome State Fault Refusal :=
  .next (sbc (.memory (.absolute w)) s)

/-- SBC (a),Y, 0xF1 (R172). -/
def execSbcIndY (a : Byte) (s : State) : Host.Outcome State Fault Refusal :=
  .next (sbc (.memory (.indirectY a)) s)

/-- SBC a,X, 0xF5 (R172). -/
def execSbcZpX (a : Byte) (s : State) : Host.Outcome State Fault Refusal :=
  .next (sbc (.memory (.zeroPageX a)) s)

/-- SBC w,Y, 0xF9 (R172). -/
def execSbcAbsY (w : Word) (s : State) : Host.Outcome State Fault Refusal :=
  .next (sbc (.memory (.absoluteY w)) s)

/-- SBC w,X, 0xFD (R172). -/
def execSbcAbsX (w : Word) (s : State) : Host.Outcome State Fault Refusal :=
  .next (sbc (.memory (.absoluteX w)) s)

/-- CMP (a,X), 0xC1 (R174). -/
def execCmpIndX (a : Byte) (s : State) : Host.Outcome State Fault Refusal :=
  .next (cmp (.memory (.indirectX a)) s)

/-- CMP a, 0xC5 (R174). -/
def execCmpZp (a : Byte) (s : State) : Host.Outcome State Fault Refusal :=
  .next (cmp (.memory (.zeroPage a)) s)

/-- CMP #v, 0xC9 (R174). -/
def execCmpImm (v : Byte) (s : State) : Host.Outcome State Fault Refusal :=
  .next (cmp (.immediate v) s)

/-- CMP w, 0xCD (R174). -/
def execCmpAbs (w : Word) (s : State) : Host.Outcome State Fault Refusal :=
  .next (cmp (.memory (.absolute w)) s)

/-- CMP (a),Y, 0xD1 (R174). -/
def execCmpIndY (a : Byte) (s : State) : Host.Outcome State Fault Refusal :=
  .next (cmp (.memory (.indirectY a)) s)

/-- CMP a,X, 0xD5 (R174). -/
def execCmpZpX (a : Byte) (s : State) : Host.Outcome State Fault Refusal :=
  .next (cmp (.memory (.zeroPageX a)) s)

/-- CMP w,Y, 0xD9 (R174). -/
def execCmpAbsY (w : Word) (s : State) : Host.Outcome State Fault Refusal :=
  .next (cmp (.memory (.absoluteY w)) s)

/-- CMP w,X, 0xDD (R174). -/
def execCmpAbsX (w : Word) (s : State) : Host.Outcome State Fault Refusal :=
  .next (cmp (.memory (.absoluteX w)) s)

/-- CPX #v, 0xE0 (R175). -/
def execCpxImm (v : Byte) (s : State) : Host.Outcome State Fault Refusal :=
  .next (cpx (.immediate v) s)

/-- CPX a, 0xE4 (R175). -/
def execCpxZp (a : Byte) (s : State) : Host.Outcome State Fault Refusal :=
  .next (cpx (.memory (.zeroPage a)) s)

/-- CPX w, 0xEC (R175). -/
def execCpxAbs (w : Word) (s : State) : Host.Outcome State Fault Refusal :=
  .next (cpx (.memory (.absolute w)) s)

/-- CPY #v, 0xC0 (R176). -/
def execCpyImm (v : Byte) (s : State) : Host.Outcome State Fault Refusal :=
  .next (cpy (.immediate v) s)

/-- CPY a, 0xC4 (R176). -/
def execCpyZp (a : Byte) (s : State) : Host.Outcome State Fault Refusal :=
  .next (cpy (.memory (.zeroPage a)) s)

/-- CPY w, 0xCC (R176). -/
def execCpyAbs (w : Word) (s : State) : Host.Outcome State Fault Refusal :=
  .next (cpy (.memory (.absolute w)) s)

end Sys2Proof.Machine
end

