-- ==== Sys2Proof/Machine/Control.lean ====
section
/-! DEFINITION. Branches, jumps, subroutine call and return, RTI and BRK (spec 47_control). When a rule here begins, PC is past the instruction's
bytes (R260, R270). One definition per row of the opcode map. -/

namespace Sys2Proof.Machine

/-- `Branch(sel, exp)` (R260). -/
def branch (sel : BitVec 2) (exp : Bool) (d : Byte) (s : State) : State :=
  if s.cpu.p.branchTaken sel exp then s.setPc (branchTarget s.cpu.pc d) else s

/-- BPL d, 0x10 (R261). -/
def execBpl (d : Byte) (s : State) : Host.Outcome State Fault Refusal :=
  .next (branch 0 false d s)

/-- BMI d, 0x30 (R262). -/
def execBmi (d : Byte) (s : State) : Host.Outcome State Fault Refusal :=
  .next (branch 0 true d s)

/-- BVC d, 0x50 (R263). -/
def execBvc (d : Byte) (s : State) : Host.Outcome State Fault Refusal :=
  .next (branch 1 false d s)

/-- BVS d, 0x70 (R264). -/
def execBvs (d : Byte) (s : State) : Host.Outcome State Fault Refusal :=
  .next (branch 1 true d s)

/-- BCC d, 0x90 (R265). -/
def execBcc (d : Byte) (s : State) : Host.Outcome State Fault Refusal :=
  .next (branch 2 false d s)

/-- BCS d, 0xB0 (R266). -/
def execBcs (d : Byte) (s : State) : Host.Outcome State Fault Refusal :=
  .next (branch 2 true d s)

/-- BNE d, 0xD0 (R267). -/
def execBne (d : Byte) (s : State) : Host.Outcome State Fault Refusal :=
  .next (branch 3 false d s)

/-- BEQ d, 0xF0 (R268). -/
def execBeq (d : Byte) (s : State) : Host.Outcome State Fault Refusal :=
  .next (branch 3 true d s)

/-- JMP w, 0x4C (R269). -/
def execJmpAbs (w : Word) (s : State) : Host.Outcome State Fault Refusal :=
  .next (s.setPc w)

/-- JMP (w), 0x6C (R269). -/
def execJmpInd (w : Word) (s : State) : Host.Outcome State Fault Refusal :=
  let r := busRead16page w s
  .next (r.2.setPc r.1)

/-- JSR w, 0x20 (R270): push the address of its own last byte, high byte first. -/
def execJsr (w : Word) (s : State) : Host.Outcome State Fault Refusal :=
  .next ((push16 (s.cpu.pc - 1) s).setPc w)

/-- RTS, 0x60 (R271): the pulled address plus one. -/
def execRts (s : State) : Host.Outcome State Fault Refusal :=
  let r := pull16 s
  .next (r.2.setPc (r.1 + 1))

/-- RTI, 0x40 (R272). -/
def execRti (s : State) : Host.Outcome State Fault Refusal :=
  .next (interruptReturn s)

/-- BRK, 0x00 (R273): skip the padding byte, then enter through the shared vector; I does not mask it. -/
def execBrk (s : State) : Host.Outcome State Fault Refusal :=
  .next (interruptEntry irqVector true (s.setPc (s.cpu.pc + 1)))

end Sys2Proof.Machine
end

