-- ==== Sys2Proof/Machine/FlagOps.lean ====
section
/-! DEFINITION. The flag instructions (spec 41_flags R154-R160): each writes one flag. One definition per row of the opcode map. -/

namespace Sys2Proof.Machine

/-- CLC, 0x18 (R154). -/
def execClc (s : State) : Host.Outcome State Fault Refusal :=
  .next (s.setP { s.cpu.p with c := false })

/-- SEC, 0x38 (R155). -/
def execSec (s : State) : Host.Outcome State Fault Refusal :=
  .next (s.setP { s.cpu.p with c := true })

/-- CLI, 0x58 (R156). -/
def execCli (s : State) : Host.Outcome State Fault Refusal :=
  .next (s.setP { s.cpu.p with i := false })

/-- SEI, 0x78 (R157). -/
def execSei (s : State) : Host.Outcome State Fault Refusal :=
  .next (s.setP { s.cpu.p with i := true })

/-- CLV, 0xB8 (R158). -/
def execClv (s : State) : Host.Outcome State Fault Refusal :=
  .next (s.setP { s.cpu.p with v := false })

/-- CLD, 0xD8 (R159): D affects no arithmetic. -/
def execCld (s : State) : Host.Outcome State Fault Refusal :=
  .next (s.setP { s.cpu.p with d := false })

/-- SED, 0xF8 (R160). -/
def execSed (s : State) : Host.Outcome State Fault Refusal :=
  .next (s.setP { s.cpu.p with d := true })

end Sys2Proof.Machine
end

