-- ==== Sys2Proof/Machine/Logic.lean ====
section
/-! DEFINITION. The logical operations (spec 43_logic). One definition per row of the opcode map. -/

namespace Sys2Proof.Machine

/-- Write A and recompute N and Z from it: the tail of AND, ORA, EOR, LDA, TXA, TYA and PLA. -/
def setANZ (v : Byte) (s : State) : State := (s.setA v).setP (s.cpu.p.setNZ v)

/-- AND (R190). -/
def andA (o : Src) (s : State) : State :=
  let r := readSrc o s
  setANZ (r.2.cpu.a &&& r.1) r.2

/-- ORA (R191). -/
def oraA (o : Src) (s : State) : State :=
  let r := readSrc o s
  setANZ (r.2.cpu.a ||| r.1) r.2

/-- EOR (R192). -/
def eorA (o : Src) (s : State) : State :=
  let r := readSrc o s
  setANZ (r.2.cpu.a ^^^ r.1) r.2

/-- BIT (R193): A is not written. -/
def bitA (m : MemMode) (s : State) : State :=
  let r := readMem m s
  r.2.setP (r.2.cpu.p.bitTest r.2.cpu.a r.1)

/-- AND (a,X), 0x21 (R190). -/
def execAndIndX (a : Byte) (s : State) : Host.Outcome State Fault Refusal :=
  .next (andA (.memory (.indirectX a)) s)

/-- AND a, 0x25 (R190). -/
def execAndZp (a : Byte) (s : State) : Host.Outcome State Fault Refusal :=
  .next (andA (.memory (.zeroPage a)) s)

/-- AND #v, 0x29 (R190). -/
def execAndImm (v : Byte) (s : State) : Host.Outcome State Fault Refusal :=
  .next (andA (.immediate v) s)

/-- AND w, 0x2D (R190). -/
def execAndAbs (w : Word) (s : State) : Host.Outcome State Fault Refusal :=
  .next (andA (.memory (.absolute w)) s)

/-- AND (a),Y, 0x31 (R190). -/
def execAndIndY (a : Byte) (s : State) : Host.Outcome State Fault Refusal :=
  .next (andA (.memory (.indirectY a)) s)

/-- AND a,X, 0x35 (R190). -/
def execAndZpX (a : Byte) (s : State) : Host.Outcome State Fault Refusal :=
  .next (andA (.memory (.zeroPageX a)) s)

/-- AND w,Y, 0x39 (R190). -/
def execAndAbsY (w : Word) (s : State) : Host.Outcome State Fault Refusal :=
  .next (andA (.memory (.absoluteY w)) s)

/-- AND w,X, 0x3D (R190). -/
def execAndAbsX (w : Word) (s : State) : Host.Outcome State Fault Refusal :=
  .next (andA (.memory (.absoluteX w)) s)

/-- ORA (a,X), 0x01 (R191). -/
def execOraIndX (a : Byte) (s : State) : Host.Outcome State Fault Refusal :=
  .next (oraA (.memory (.indirectX a)) s)

/-- ORA a, 0x05 (R191). -/
def execOraZp (a : Byte) (s : State) : Host.Outcome State Fault Refusal :=
  .next (oraA (.memory (.zeroPage a)) s)

/-- ORA #v, 0x09 (R191). -/
def execOraImm (v : Byte) (s : State) : Host.Outcome State Fault Refusal :=
  .next (oraA (.immediate v) s)

/-- ORA w, 0x0D (R191). -/
def execOraAbs (w : Word) (s : State) : Host.Outcome State Fault Refusal :=
  .next (oraA (.memory (.absolute w)) s)

/-- ORA (a),Y, 0x11 (R191). -/
def execOraIndY (a : Byte) (s : State) : Host.Outcome State Fault Refusal :=
  .next (oraA (.memory (.indirectY a)) s)

/-- ORA a,X, 0x15 (R191). -/
def execOraZpX (a : Byte) (s : State) : Host.Outcome State Fault Refusal :=
  .next (oraA (.memory (.zeroPageX a)) s)

/-- ORA w,Y, 0x19 (R191). -/
def execOraAbsY (w : Word) (s : State) : Host.Outcome State Fault Refusal :=
  .next (oraA (.memory (.absoluteY w)) s)

/-- ORA w,X, 0x1D (R191). -/
def execOraAbsX (w : Word) (s : State) : Host.Outcome State Fault Refusal :=
  .next (oraA (.memory (.absoluteX w)) s)

/-- EOR (a,X), 0x41 (R192). -/
def execEorIndX (a : Byte) (s : State) : Host.Outcome State Fault Refusal :=
  .next (eorA (.memory (.indirectX a)) s)

/-- EOR a, 0x45 (R192). -/
def execEorZp (a : Byte) (s : State) : Host.Outcome State Fault Refusal :=
  .next (eorA (.memory (.zeroPage a)) s)

/-- EOR #v, 0x49 (R192). -/
def execEorImm (v : Byte) (s : State) : Host.Outcome State Fault Refusal :=
  .next (eorA (.immediate v) s)

/-- EOR w, 0x4D (R192). -/
def execEorAbs (w : Word) (s : State) : Host.Outcome State Fault Refusal :=
  .next (eorA (.memory (.absolute w)) s)

/-- EOR (a),Y, 0x51 (R192). -/
def execEorIndY (a : Byte) (s : State) : Host.Outcome State Fault Refusal :=
  .next (eorA (.memory (.indirectY a)) s)

/-- EOR a,X, 0x55 (R192). -/
def execEorZpX (a : Byte) (s : State) : Host.Outcome State Fault Refusal :=
  .next (eorA (.memory (.zeroPageX a)) s)

/-- EOR w,Y, 0x59 (R192). -/
def execEorAbsY (w : Word) (s : State) : Host.Outcome State Fault Refusal :=
  .next (eorA (.memory (.absoluteY w)) s)

/-- EOR w,X, 0x5D (R192). -/
def execEorAbsX (w : Word) (s : State) : Host.Outcome State Fault Refusal :=
  .next (eorA (.memory (.absoluteX w)) s)

/-- BIT a, 0x24 (R193). -/
def execBitZp (a : Byte) (s : State) : Host.Outcome State Fault Refusal :=
  .next (bitA (.zeroPage a) s)

/-- BIT w, 0x2C (R193). -/
def execBitAbs (w : Word) (s : State) : Host.Outcome State Fault Refusal :=
  .next (bitA (.absolute w) s)

end Sys2Proof.Machine
end

