-- ==== Sys2Proof/Machine/Shift.lean ====
section
/-! DEFINITION. The read-modify-write operations (spec 44_shift_rmw): each is the frame of R200 with its own function. One definition per row of the opcode map. -/

namespace Sys2Proof.Machine

/-- ASL a, 0x06 (R201). -/
def execAslZp (a : Byte) (s : State) : Host.Outcome State Fault Refusal :=
  .next (rmw (.memory (.zeroPage a)) aslFn s)

/-- ASL A, 0x0A (R201). -/
def execAslAcc (s : State) : Host.Outcome State Fault Refusal :=
  .next (rmw .accumulator aslFn s)

/-- ASL w, 0x0E (R201). -/
def execAslAbs (w : Word) (s : State) : Host.Outcome State Fault Refusal :=
  .next (rmw (.memory (.absolute w)) aslFn s)

/-- ASL a,X, 0x16 (R201). -/
def execAslZpX (a : Byte) (s : State) : Host.Outcome State Fault Refusal :=
  .next (rmw (.memory (.zeroPageX a)) aslFn s)

/-- ASL w,X, 0x1E (R201). -/
def execAslAbsX (w : Word) (s : State) : Host.Outcome State Fault Refusal :=
  .next (rmw (.memory (.absoluteX w)) aslFn s)

/-- LSR a, 0x46 (R202). -/
def execLsrZp (a : Byte) (s : State) : Host.Outcome State Fault Refusal :=
  .next (rmw (.memory (.zeroPage a)) lsrFn s)

/-- LSR A, 0x4A (R202). -/
def execLsrAcc (s : State) : Host.Outcome State Fault Refusal :=
  .next (rmw .accumulator lsrFn s)

/-- LSR w, 0x4E (R202). -/
def execLsrAbs (w : Word) (s : State) : Host.Outcome State Fault Refusal :=
  .next (rmw (.memory (.absolute w)) lsrFn s)

/-- LSR a,X, 0x56 (R202). -/
def execLsrZpX (a : Byte) (s : State) : Host.Outcome State Fault Refusal :=
  .next (rmw (.memory (.zeroPageX a)) lsrFn s)

/-- LSR w,X, 0x5E (R202). -/
def execLsrAbsX (w : Word) (s : State) : Host.Outcome State Fault Refusal :=
  .next (rmw (.memory (.absoluteX w)) lsrFn s)

/-- ROL a, 0x26 (R203). -/
def execRolZp (a : Byte) (s : State) : Host.Outcome State Fault Refusal :=
  .next (rmw (.memory (.zeroPage a)) rolFn s)

/-- ROL A, 0x2A (R203). -/
def execRolAcc (s : State) : Host.Outcome State Fault Refusal :=
  .next (rmw .accumulator rolFn s)

/-- ROL w, 0x2E (R203). -/
def execRolAbs (w : Word) (s : State) : Host.Outcome State Fault Refusal :=
  .next (rmw (.memory (.absolute w)) rolFn s)

/-- ROL a,X, 0x36 (R203). -/
def execRolZpX (a : Byte) (s : State) : Host.Outcome State Fault Refusal :=
  .next (rmw (.memory (.zeroPageX a)) rolFn s)

/-- ROL w,X, 0x3E (R203). -/
def execRolAbsX (w : Word) (s : State) : Host.Outcome State Fault Refusal :=
  .next (rmw (.memory (.absoluteX w)) rolFn s)

/-- ROR a, 0x66 (R204). -/
def execRorZp (a : Byte) (s : State) : Host.Outcome State Fault Refusal :=
  .next (rmw (.memory (.zeroPage a)) rorFn s)

/-- ROR A, 0x6A (R204). -/
def execRorAcc (s : State) : Host.Outcome State Fault Refusal :=
  .next (rmw .accumulator rorFn s)

/-- ROR w, 0x6E (R204). -/
def execRorAbs (w : Word) (s : State) : Host.Outcome State Fault Refusal :=
  .next (rmw (.memory (.absolute w)) rorFn s)

/-- ROR a,X, 0x76 (R204). -/
def execRorZpX (a : Byte) (s : State) : Host.Outcome State Fault Refusal :=
  .next (rmw (.memory (.zeroPageX a)) rorFn s)

/-- ROR w,X, 0x7E (R204). -/
def execRorAbsX (w : Word) (s : State) : Host.Outcome State Fault Refusal :=
  .next (rmw (.memory (.absoluteX w)) rorFn s)

/-- INC a, 0xE6 (R205). -/
def execIncZp (a : Byte) (s : State) : Host.Outcome State Fault Refusal :=
  .next (rmwMem (.zeroPage a) incFn s)

/-- INC w, 0xEE (R205). -/
def execIncAbs (w : Word) (s : State) : Host.Outcome State Fault Refusal :=
  .next (rmwMem (.absolute w) incFn s)

/-- INC a,X, 0xF6 (R205). -/
def execIncZpX (a : Byte) (s : State) : Host.Outcome State Fault Refusal :=
  .next (rmwMem (.zeroPageX a) incFn s)

/-- INC w,X, 0xFE (R205). -/
def execIncAbsX (w : Word) (s : State) : Host.Outcome State Fault Refusal :=
  .next (rmwMem (.absoluteX w) incFn s)

/-- DEC a, 0xC6 (R206). -/
def execDecZp (a : Byte) (s : State) : Host.Outcome State Fault Refusal :=
  .next (rmwMem (.zeroPage a) decFn s)

/-- DEC w, 0xCE (R206). -/
def execDecAbs (w : Word) (s : State) : Host.Outcome State Fault Refusal :=
  .next (rmwMem (.absolute w) decFn s)

/-- DEC a,X, 0xD6 (R206). -/
def execDecZpX (a : Byte) (s : State) : Host.Outcome State Fault Refusal :=
  .next (rmwMem (.zeroPageX a) decFn s)

/-- DEC w,X, 0xDE (R206). -/
def execDecAbsX (w : Word) (s : State) : Host.Outcome State Fault Refusal :=
  .next (rmwMem (.absoluteX w) decFn s)

end Sys2Proof.Machine
end

