-- ==== Sys2Proof/Machine/Stack.lean ====
section
/-! DEFINITION. The stack instructions (spec 46_stack), over the primitives of Machine/Ops.lean. One definition per row of the opcode map. -/

namespace Sys2Proof.Machine

/-- PHA, 0x48 (R252). -/
def execPha (s : State) : Host.Outcome State Fault Refusal :=
  .next (push s.cpu.a s)

/-- PHP, 0x08 (R253): the pushed copy has B and bit 5 set; the live flags are unchanged. -/
def execPhp (s : State) : Host.Outcome State Fault Refusal :=
  .next (push s.cpu.p.pushedByBreak s)

/-- PLA, 0x68 (R254). -/
def execPla (s : State) : Host.Outcome State Fault Refusal :=
  let r := pull s
  .next (setANZ r.1 r.2)

/-- PLP, 0x28 (R255): every flag but B. -/
def execPlp (s : State) : Host.Outcome State Fault Refusal :=
  .next (pullStatus s)

end Sys2Proof.Machine
end

