-- ==== Sys2Proof/Machine/Transfer.lean ====
section
/-! DEFINITION. Loads, stores, register transfers, register increments and NOP (spec 45_load_store_transfer). One definition per row of the opcode map. -/

namespace Sys2Proof.Machine

/-- Write X and recompute N and Z from it. -/
def setXNZ (v : Byte) (s : State) : State := (s.setX v).setP (s.cpu.p.setNZ v)

/-- Write Y and recompute N and Z from it. -/
def setYNZ (v : Byte) (s : State) : State := (s.setY v).setP (s.cpu.p.setNZ v)

/-- LDA (R220). -/
def lda (o : Src) (s : State) : State :=
  let r := readSrc o s
  setANZ r.1 r.2

/-- LDX (R221). -/
def ldx (o : Src) (s : State) : State :=
  let r := readSrc o s
  setXNZ r.1 r.2

/-- LDY (R222). -/
def ldy (o : Src) (s : State) : State :=
  let r := readSrc o s
  setYNZ r.1 r.2

/-- LDA (a,X), 0xA1 (R220). -/
def execLdaIndX (a : Byte) (s : State) : Host.Outcome State Fault Refusal :=
  .next (lda (.memory (.indirectX a)) s)

/-- LDA a, 0xA5 (R220). -/
def execLdaZp (a : Byte) (s : State) : Host.Outcome State Fault Refusal :=
  .next (lda (.memory (.zeroPage a)) s)

/-- LDA #v, 0xA9 (R220). -/
def execLdaImm (v : Byte) (s : State) : Host.Outcome State Fault Refusal :=
  .next (lda (.immediate v) s)

/-- LDA w, 0xAD (R220). -/
def execLdaAbs (w : Word) (s : State) : Host.Outcome State Fault Refusal :=
  .next (lda (.memory (.absolute w)) s)

/-- LDA (a),Y, 0xB1 (R220). -/
def execLdaIndY (a : Byte) (s : State) : Host.Outcome State Fault Refusal :=
  .next (lda (.memory (.indirectY a)) s)

/-- LDA a,X, 0xB5 (R220). -/
def execLdaZpX (a : Byte) (s : State) : Host.Outcome State Fault Refusal :=
  .next (lda (.memory (.zeroPageX a)) s)

/-- LDA w,Y, 0xB9 (R220). -/
def execLdaAbsY (w : Word) (s : State) : Host.Outcome State Fault Refusal :=
  .next (lda (.memory (.absoluteY w)) s)

/-- LDA w,X, 0xBD (R220). -/
def execLdaAbsX (w : Word) (s : State) : Host.Outcome State Fault Refusal :=
  .next (lda (.memory (.absoluteX w)) s)

/-- LDX #v, 0xA2 (R221). -/
def execLdxImm (v : Byte) (s : State) : Host.Outcome State Fault Refusal :=
  .next (ldx (.immediate v) s)

/-- LDX a, 0xA6 (R221). -/
def execLdxZp (a : Byte) (s : State) : Host.Outcome State Fault Refusal :=
  .next (ldx (.memory (.zeroPage a)) s)

/-- LDX w, 0xAE (R221). -/
def execLdxAbs (w : Word) (s : State) : Host.Outcome State Fault Refusal :=
  .next (ldx (.memory (.absolute w)) s)

/-- LDX a,Y, 0xB6 (R221). -/
def execLdxZpY (a : Byte) (s : State) : Host.Outcome State Fault Refusal :=
  .next (ldx (.memory (.zeroPageY a)) s)

/-- LDX w,Y, 0xBE (R221). -/
def execLdxAbsY (w : Word) (s : State) : Host.Outcome State Fault Refusal :=
  .next (ldx (.memory (.absoluteY w)) s)

/-- LDY #v, 0xA0 (R222). -/
def execLdyImm (v : Byte) (s : State) : Host.Outcome State Fault Refusal :=
  .next (ldy (.immediate v) s)

/-- LDY a, 0xA4 (R222). -/
def execLdyZp (a : Byte) (s : State) : Host.Outcome State Fault Refusal :=
  .next (ldy (.memory (.zeroPage a)) s)

/-- LDY w, 0xAC (R222). -/
def execLdyAbs (w : Word) (s : State) : Host.Outcome State Fault Refusal :=
  .next (ldy (.memory (.absolute w)) s)

/-- LDY a,X, 0xB4 (R222). -/
def execLdyZpX (a : Byte) (s : State) : Host.Outcome State Fault Refusal :=
  .next (ldy (.memory (.zeroPageX a)) s)

/-- LDY w,X, 0xBC (R222). -/
def execLdyAbsX (w : Word) (s : State) : Host.Outcome State Fault Refusal :=
  .next (ldy (.memory (.absoluteX w)) s)

/-- STA (a,X), 0x81 (R223). -/
def execStaIndX (a : Byte) (s : State) : Host.Outcome State Fault Refusal :=
  .next (storeTo (.indirectX a) s.cpu.a s)

/-- STA a, 0x85 (R223). -/
def execStaZp (a : Byte) (s : State) : Host.Outcome State Fault Refusal :=
  .next (storeTo (.zeroPage a) s.cpu.a s)

/-- STA w, 0x8D (R223). -/
def execStaAbs (w : Word) (s : State) : Host.Outcome State Fault Refusal :=
  .next (storeTo (.absolute w) s.cpu.a s)

/-- STA (a),Y, 0x91 (R223). -/
def execStaIndY (a : Byte) (s : State) : Host.Outcome State Fault Refusal :=
  .next (storeTo (.indirectY a) s.cpu.a s)

/-- STA a,X, 0x95 (R223). -/
def execStaZpX (a : Byte) (s : State) : Host.Outcome State Fault Refusal :=
  .next (storeTo (.zeroPageX a) s.cpu.a s)

/-- STA w,Y, 0x99 (R223). -/
def execStaAbsY (w : Word) (s : State) : Host.Outcome State Fault Refusal :=
  .next (storeTo (.absoluteY w) s.cpu.a s)

/-- STA w,X, 0x9D (R223). -/
def execStaAbsX (w : Word) (s : State) : Host.Outcome State Fault Refusal :=
  .next (storeTo (.absoluteX w) s.cpu.a s)

/-- STX a, 0x86 (R224). -/
def execStxZp (a : Byte) (s : State) : Host.Outcome State Fault Refusal :=
  .next (storeTo (.zeroPage a) s.cpu.x s)

/-- STX w, 0x8E (R224). -/
def execStxAbs (w : Word) (s : State) : Host.Outcome State Fault Refusal :=
  .next (storeTo (.absolute w) s.cpu.x s)

/-- STX a,Y, 0x96 (R224). -/
def execStxZpY (a : Byte) (s : State) : Host.Outcome State Fault Refusal :=
  .next (storeTo (.zeroPageY a) s.cpu.x s)

/-- STY a, 0x84 (R225). -/
def execStyZp (a : Byte) (s : State) : Host.Outcome State Fault Refusal :=
  .next (storeTo (.zeroPage a) s.cpu.y s)

/-- STY w, 0x8C (R225). -/
def execStyAbs (w : Word) (s : State) : Host.Outcome State Fault Refusal :=
  .next (storeTo (.absolute w) s.cpu.y s)

/-- STY a,X, 0x94 (R225). -/
def execStyZpX (a : Byte) (s : State) : Host.Outcome State Fault Refusal :=
  .next (storeTo (.zeroPageX a) s.cpu.y s)

/-- TAX, 0xAA (R226). -/
def execTax (s : State) : Host.Outcome State Fault Refusal :=
  .next (setXNZ s.cpu.a s)

/-- TAY, 0xA8 (R227). -/
def execTay (s : State) : Host.Outcome State Fault Refusal :=
  .next (setYNZ s.cpu.a s)

/-- TXA, 0x8A (R228). -/
def execTxa (s : State) : Host.Outcome State Fault Refusal :=
  .next (setANZ s.cpu.x s)

/-- TYA, 0x98 (R229). -/
def execTya (s : State) : Host.Outcome State Fault Refusal :=
  .next (setANZ s.cpu.y s)

/-- TSX, 0xBA (R230). -/
def execTsx (s : State) : Host.Outcome State Fault Refusal :=
  .next (setXNZ s.cpu.s s)

/-- TXS, 0x9A (R231): the one transfer that leaves N and Z. -/
def execTxs (s : State) : Host.Outcome State Fault Refusal :=
  .next (s.setS s.cpu.x)

/-- INX, 0xE8 (R232). -/
def execInx (s : State) : Host.Outcome State Fault Refusal :=
  .next (setXNZ (s.cpu.x + 1) s)

/-- INY, 0xC8 (R233). -/
def execIny (s : State) : Host.Outcome State Fault Refusal :=
  .next (setYNZ (s.cpu.y + 1) s)

/-- DEX, 0xCA (R234). -/
def execDex (s : State) : Host.Outcome State Fault Refusal :=
  .next (setXNZ (s.cpu.x - 1) s)

/-- DEY, 0x88 (R235). -/
def execDey (s : State) : Host.Outcome State Fault Refusal :=
  .next (setYNZ (s.cpu.y - 1) s)

/-- NOP, 0xEA (R236): nothing beyond the fetch and the cycle count of the step. -/
def execNop (s : State) : Host.Outcome State Fault Refusal :=
  .next s

end Sys2Proof.Machine
end

