-- ==== Sys2Proof/Decode.lean ====
section
/-! DEFINITION. The decoder (spec 30_encoding R100-R107, R110, R111) and, after it, the encoder, both written from the opcode map of
R106. `opcodeForm` is that map; `decode` reads an instruction from a byte sequence, total on any bytes, rejecting by name.
`decodeFields` is the other path the source describes, named opcodes and the aaabbbcc field tables (R101-R103). -/

namespace Sys2Proof

/-- Why bytes are no instruction. -/
inductive DecodeError where
  /-- The opcode byte raises a fatal decode fault (R104): `unknownOpcode` for 104 bytes, `noAddress` for 0x89, store with immediate,
  a mode that yields no address (40_addressing R143). -/
  | fatal (kind : Machine.FaultKind) (op : Byte)
  /-- The sequence ends before the instruction does; the machine, which fetches its bytes from the bus, never meets this. -/
  | truncated
  deriving DecidableEq, Repr

/-- The three instruction formats (R100): the opcode alone, with `op8`, with `lo, hi`. -/
inductive OpForm where
  | f1 (i : Instr)
  | f2 (mk : Byte → Instr)
  | f3 (mk : Word → Instr)

/-- The opcode map (R106): the format and length of an instruction are fixed by its opcode byte alone (R100, R107). -/
def opcodeForm (op : Byte) : Except Machine.FaultKind OpForm :=
  match op.toNat with
  | 0x00 => .ok (.f1 .brk)
  | 0x01 => .ok (.f2 .oraIndX)
  | 0x05 => .ok (.f2 .oraZp)
  | 0x06 => .ok (.f2 .aslZp)
  | 0x08 => .ok (.f1 .php)
  | 0x09 => .ok (.f2 .oraImm)
  | 0x0A => .ok (.f1 .aslAcc)
  | 0x0D => .ok (.f3 .oraAbs)
  | 0x0E => .ok (.f3 .aslAbs)
  | 0x10 => .ok (.f2 .bpl)
  | 0x11 => .ok (.f2 .oraIndY)
  | 0x15 => .ok (.f2 .oraZpX)
  | 0x16 => .ok (.f2 .aslZpX)
  | 0x18 => .ok (.f1 .clc)
  | 0x19 => .ok (.f3 .oraAbsY)
  | 0x1D => .ok (.f3 .oraAbsX)
  | 0x1E => .ok (.f3 .aslAbsX)
  | 0x20 => .ok (.f3 .jsr)
  | 0x21 => .ok (.f2 .andIndX)
  | 0x24 => .ok (.f2 .bitZp)
  | 0x25 => .ok (.f2 .andZp)
  | 0x26 => .ok (.f2 .rolZp)
  | 0x28 => .ok (.f1 .plp)
  | 0x29 => .ok (.f2 .andImm)
  | 0x2A => .ok (.f1 .rolAcc)
  | 0x2C => .ok (.f3 .bitAbs)
  | 0x2D => .ok (.f3 .andAbs)
  | 0x2E => .ok (.f3 .rolAbs)
  | 0x30 => .ok (.f2 .bmi)
  | 0x31 => .ok (.f2 .andIndY)
  | 0x35 => .ok (.f2 .andZpX)
  | 0x36 => .ok (.f2 .rolZpX)
  | 0x38 => .ok (.f1 .sec)
  | 0x39 => .ok (.f3 .andAbsY)
  | 0x3D => .ok (.f3 .andAbsX)
  | 0x3E => .ok (.f3 .rolAbsX)
  | 0x40 => .ok (.f1 .rti)
  | 0x41 => .ok (.f2 .eorIndX)
  | 0x45 => .ok (.f2 .eorZp)
  | 0x46 => .ok (.f2 .lsrZp)
  | 0x48 => .ok (.f1 .pha)
  | 0x49 => .ok (.f2 .eorImm)
  | 0x4A => .ok (.f1 .lsrAcc)
  | 0x4C => .ok (.f3 .jmpAbs)
  | 0x4D => .ok (.f3 .eorAbs)
  | 0x4E => .ok (.f3 .lsrAbs)
  | 0x50 => .ok (.f2 .bvc)
  | 0x51 => .ok (.f2 .eorIndY)
  | 0x55 => .ok (.f2 .eorZpX)
  | 0x56 => .ok (.f2 .lsrZpX)
  | 0x58 => .ok (.f1 .cli)
  | 0x59 => .ok (.f3 .eorAbsY)
  | 0x5D => .ok (.f3 .eorAbsX)
  | 0x5E => .ok (.f3 .lsrAbsX)
  | 0x60 => .ok (.f1 .rts)
  | 0x61 => .ok (.f2 .adcIndX)
  | 0x65 => .ok (.f2 .adcZp)
  | 0x66 => .ok (.f2 .rorZp)
  | 0x68 => .ok (.f1 .pla)
  | 0x69 => .ok (.f2 .adcImm)
  | 0x6A => .ok (.f1 .rorAcc)
  | 0x6C => .ok (.f3 .jmpInd)
  | 0x6D => .ok (.f3 .adcAbs)
  | 0x6E => .ok (.f3 .rorAbs)
  | 0x70 => .ok (.f2 .bvs)
  | 0x71 => .ok (.f2 .adcIndY)
  | 0x75 => .ok (.f2 .adcZpX)
  | 0x76 => .ok (.f2 .rorZpX)
  | 0x78 => .ok (.f1 .sei)
  | 0x79 => .ok (.f3 .adcAbsY)
  | 0x7D => .ok (.f3 .adcAbsX)
  | 0x7E => .ok (.f3 .rorAbsX)
  | 0x81 => .ok (.f2 .staIndX)
  | 0x84 => .ok (.f2 .styZp)
  | 0x85 => .ok (.f2 .staZp)
  | 0x86 => .ok (.f2 .stxZp)
  | 0x88 => .ok (.f1 .dey)
  | 0x8A => .ok (.f1 .txa)
  | 0x8C => .ok (.f3 .styAbs)
  | 0x8D => .ok (.f3 .staAbs)
  | 0x8E => .ok (.f3 .stxAbs)
  | 0x90 => .ok (.f2 .bcc)
  | 0x91 => .ok (.f2 .staIndY)
  | 0x94 => .ok (.f2 .styZpX)
  | 0x95 => .ok (.f2 .staZpX)
  | 0x96 => .ok (.f2 .stxZpY)
  | 0x98 => .ok (.f1 .tya)
  | 0x99 => .ok (.f3 .staAbsY)
  | 0x9A => .ok (.f1 .txs)
  | 0x9D => .ok (.f3 .staAbsX)
  | 0xA0 => .ok (.f2 .ldyImm)
  | 0xA1 => .ok (.f2 .ldaIndX)
  | 0xA2 => .ok (.f2 .ldxImm)
  | 0xA4 => .ok (.f2 .ldyZp)
  | 0xA5 => .ok (.f2 .ldaZp)
  | 0xA6 => .ok (.f2 .ldxZp)
  | 0xA8 => .ok (.f1 .tay)
  | 0xA9 => .ok (.f2 .ldaImm)
  | 0xAA => .ok (.f1 .tax)
  | 0xAC => .ok (.f3 .ldyAbs)
  | 0xAD => .ok (.f3 .ldaAbs)
  | 0xAE => .ok (.f3 .ldxAbs)
  | 0xB0 => .ok (.f2 .bcs)
  | 0xB1 => .ok (.f2 .ldaIndY)
  | 0xB4 => .ok (.f2 .ldyZpX)
  | 0xB5 => .ok (.f2 .ldaZpX)
  | 0xB6 => .ok (.f2 .ldxZpY)
  | 0xB8 => .ok (.f1 .clv)
  | 0xB9 => .ok (.f3 .ldaAbsY)
  | 0xBA => .ok (.f1 .tsx)
  | 0xBC => .ok (.f3 .ldyAbsX)
  | 0xBD => .ok (.f3 .ldaAbsX)
  | 0xBE => .ok (.f3 .ldxAbsY)
  | 0xC0 => .ok (.f2 .cpyImm)
  | 0xC1 => .ok (.f2 .cmpIndX)
  | 0xC4 => .ok (.f2 .cpyZp)
  | 0xC5 => .ok (.f2 .cmpZp)
  | 0xC6 => .ok (.f2 .decZp)
  | 0xC8 => .ok (.f1 .iny)
  | 0xC9 => .ok (.f2 .cmpImm)
  | 0xCA => .ok (.f1 .dex)
  | 0xCC => .ok (.f3 .cpyAbs)
  | 0xCD => .ok (.f3 .cmpAbs)
  | 0xCE => .ok (.f3 .decAbs)
  | 0xD0 => .ok (.f2 .bne)
  | 0xD1 => .ok (.f2 .cmpIndY)
  | 0xD5 => .ok (.f2 .cmpZpX)
  | 0xD6 => .ok (.f2 .decZpX)
  | 0xD8 => .ok (.f1 .cld)
  | 0xD9 => .ok (.f3 .cmpAbsY)
  | 0xDD => .ok (.f3 .cmpAbsX)
  | 0xDE => .ok (.f3 .decAbsX)
  | 0xE0 => .ok (.f2 .cpxImm)
  | 0xE1 => .ok (.f2 .sbcIndX)
  | 0xE4 => .ok (.f2 .cpxZp)
  | 0xE5 => .ok (.f2 .sbcZp)
  | 0xE6 => .ok (.f2 .incZp)
  | 0xE8 => .ok (.f1 .inx)
  | 0xE9 => .ok (.f2 .sbcImm)
  | 0xEA => .ok (.f1 .nop)
  | 0xEC => .ok (.f3 .cpxAbs)
  | 0xED => .ok (.f3 .sbcAbs)
  | 0xEE => .ok (.f3 .incAbs)
  | 0xF0 => .ok (.f2 .beq)
  | 0xF1 => .ok (.f2 .sbcIndY)
  | 0xF5 => .ok (.f2 .sbcZpX)
  | 0xF6 => .ok (.f2 .incZpX)
  | 0xF8 => .ok (.f1 .sed)
  | 0xF9 => .ok (.f3 .sbcAbsY)
  | 0xFD => .ok (.f3 .sbcAbsX)
  | 0xFE => .ok (.f3 .incAbsX)
  | 0x89 => .error .noAddress
  | _ => .error .unknownOpcode

/-- Length in bytes of an instruction of this format (R100). -/
def OpForm.length : OpForm → Nat
  | .f1 _ => 1
  | .f2 _ => 2
  | .f3 _ => 3

/-- The instruction at the front of a byte sequence, and the bytes after it. -/
def decode : List Byte → Except DecodeError (Instr × List Byte)
  | [] => .error .truncated
  | op :: rest =>
    match opcodeForm op, rest with
    | .error k, _ => .error (.fatal k op)
    | .ok (.f1 i), rest => .ok (i, rest)
    | .ok (.f2 mk), op8 :: rest => .ok (mk op8, rest)
    | .ok (.f3 mk), lo :: hi :: rest => .ok (mk (mkWord hi lo), rest)
    | .ok (.f2 _), [] => .error .truncated
    | .ok (.f3 _), [] => .error .truncated
    | .ok (.f3 _), [_] => .error .truncated

/-- An opcode with a 16-bit operand, low byte first (R100, 20_memory R68). -/
def encodeF3 (op : Byte) (w : Word) : List Byte := [op, loByte w, hiByte w]

/-- The bytes of an instruction, in increasing address order. -/
def encode : Instr → List Byte
  | .brk => [0x00]
  | .oraIndX a => [0x01, a]
  | .oraZp a => [0x05, a]
  | .aslZp a => [0x06, a]
  | .php => [0x08]
  | .oraImm v => [0x09, v]
  | .aslAcc => [0x0A]
  | .oraAbs w => encodeF3 0x0D w
  | .aslAbs w => encodeF3 0x0E w
  | .bpl d => [0x10, d]
  | .oraIndY a => [0x11, a]
  | .oraZpX a => [0x15, a]
  | .aslZpX a => [0x16, a]
  | .clc => [0x18]
  | .oraAbsY w => encodeF3 0x19 w
  | .oraAbsX w => encodeF3 0x1D w
  | .aslAbsX w => encodeF3 0x1E w
  | .jsr w => encodeF3 0x20 w
  | .andIndX a => [0x21, a]
  | .bitZp a => [0x24, a]
  | .andZp a => [0x25, a]
  | .rolZp a => [0x26, a]
  | .plp => [0x28]
  | .andImm v => [0x29, v]
  | .rolAcc => [0x2A]
  | .bitAbs w => encodeF3 0x2C w
  | .andAbs w => encodeF3 0x2D w
  | .rolAbs w => encodeF3 0x2E w
  | .bmi d => [0x30, d]
  | .andIndY a => [0x31, a]
  | .andZpX a => [0x35, a]
  | .rolZpX a => [0x36, a]
  | .sec => [0x38]
  | .andAbsY w => encodeF3 0x39 w
  | .andAbsX w => encodeF3 0x3D w
  | .rolAbsX w => encodeF3 0x3E w
  | .rti => [0x40]
  | .eorIndX a => [0x41, a]
  | .eorZp a => [0x45, a]
  | .lsrZp a => [0x46, a]
  | .pha => [0x48]
  | .eorImm v => [0x49, v]
  | .lsrAcc => [0x4A]
  | .jmpAbs w => encodeF3 0x4C w
  | .eorAbs w => encodeF3 0x4D w
  | .lsrAbs w => encodeF3 0x4E w
  | .bvc d => [0x50, d]
  | .eorIndY a => [0x51, a]
  | .eorZpX a => [0x55, a]
  | .lsrZpX a => [0x56, a]
  | .cli => [0x58]
  | .eorAbsY w => encodeF3 0x59 w
  | .eorAbsX w => encodeF3 0x5D w
  | .lsrAbsX w => encodeF3 0x5E w
  | .rts => [0x60]
  | .adcIndX a => [0x61, a]
  | .adcZp a => [0x65, a]
  | .rorZp a => [0x66, a]
  | .pla => [0x68]
  | .adcImm v => [0x69, v]
  | .rorAcc => [0x6A]
  | .jmpInd w => encodeF3 0x6C w
  | .adcAbs w => encodeF3 0x6D w
  | .rorAbs w => encodeF3 0x6E w
  | .bvs d => [0x70, d]
  | .adcIndY a => [0x71, a]
  | .adcZpX a => [0x75, a]
  | .rorZpX a => [0x76, a]
  | .sei => [0x78]
  | .adcAbsY w => encodeF3 0x79 w
  | .adcAbsX w => encodeF3 0x7D w
  | .rorAbsX w => encodeF3 0x7E w
  | .staIndX a => [0x81, a]
  | .styZp a => [0x84, a]
  | .staZp a => [0x85, a]
  | .stxZp a => [0x86, a]
  | .dey => [0x88]
  | .txa => [0x8A]
  | .styAbs w => encodeF3 0x8C w
  | .staAbs w => encodeF3 0x8D w
  | .stxAbs w => encodeF3 0x8E w
  | .bcc d => [0x90, d]
  | .staIndY a => [0x91, a]
  | .styZpX a => [0x94, a]
  | .staZpX a => [0x95, a]
  | .stxZpY a => [0x96, a]
  | .tya => [0x98]
  | .staAbsY w => encodeF3 0x99 w
  | .txs => [0x9A]
  | .staAbsX w => encodeF3 0x9D w
  | .ldyImm v => [0xA0, v]
  | .ldaIndX a => [0xA1, a]
  | .ldxImm v => [0xA2, v]
  | .ldyZp a => [0xA4, a]
  | .ldaZp a => [0xA5, a]
  | .ldxZp a => [0xA6, a]
  | .tay => [0xA8]
  | .ldaImm v => [0xA9, v]
  | .tax => [0xAA]
  | .ldyAbs w => encodeF3 0xAC w
  | .ldaAbs w => encodeF3 0xAD w
  | .ldxAbs w => encodeF3 0xAE w
  | .bcs d => [0xB0, d]
  | .ldaIndY a => [0xB1, a]
  | .ldyZpX a => [0xB4, a]
  | .ldaZpX a => [0xB5, a]
  | .ldxZpY a => [0xB6, a]
  | .clv => [0xB8]
  | .ldaAbsY w => encodeF3 0xB9 w
  | .tsx => [0xBA]
  | .ldyAbsX w => encodeF3 0xBC w
  | .ldaAbsX w => encodeF3 0xBD w
  | .ldxAbsY w => encodeF3 0xBE w
  | .cpyImm v => [0xC0, v]
  | .cmpIndX a => [0xC1, a]
  | .cpyZp a => [0xC4, a]
  | .cmpZp a => [0xC5, a]
  | .decZp a => [0xC6, a]
  | .iny => [0xC8]
  | .cmpImm v => [0xC9, v]
  | .dex => [0xCA]
  | .cpyAbs w => encodeF3 0xCC w
  | .cmpAbs w => encodeF3 0xCD w
  | .decAbs w => encodeF3 0xCE w
  | .bne d => [0xD0, d]
  | .cmpIndY a => [0xD1, a]
  | .cmpZpX a => [0xD5, a]
  | .decZpX a => [0xD6, a]
  | .cld => [0xD8]
  | .cmpAbsY w => encodeF3 0xD9 w
  | .cmpAbsX w => encodeF3 0xDD w
  | .decAbsX w => encodeF3 0xDE w
  | .cpxImm v => [0xE0, v]
  | .sbcIndX a => [0xE1, a]
  | .cpxZp a => [0xE4, a]
  | .sbcZp a => [0xE5, a]
  | .incZp a => [0xE6, a]
  | .inx => [0xE8]
  | .sbcImm v => [0xE9, v]
  | .nop => [0xEA]
  | .cpxAbs w => encodeF3 0xEC w
  | .sbcAbs w => encodeF3 0xED w
  | .incAbs w => encodeF3 0xEE w
  | .beq d => [0xF0, d]
  | .sbcIndY a => [0xF1, a]
  | .sbcZpX a => [0xF5, a]
  | .incZpX a => [0xF6, a]
  | .sed => [0xF8]
  | .sbcAbsY w => encodeF3 0xF9 w
  | .sbcAbsX w => encodeF3 0xFD w
  | .incAbsX w => encodeF3 0xFE w

/-- The opcode byte of an instruction. -/
def opcodeOf (i : Instr) : Byte := (encode i).headD 0

/-- How many bytes an instruction has. -/
def Instr.length (i : Instr) : Nat := (encode i).length

/-- The bytes of an instruction whose bits `w` are numbered from the first byte up; every bit from `nbits` on is 0. -/
def tableBytes (nbits w : Nat) : List Byte :=
  [BitVec.ofNat 8 (w % 2 ^ nbits), BitVec.ofNat 8 (w % 2 ^ nbits / 256), BitVec.ofNat 8 (w % 2 ^ nbits / 65536)]

/-- What the decoder reads from an instruction given as one number. -/
def decodeTableWord (nbits w : Nat) : Option Instr :=
  match decode (tableBytes nbits w) with
  | .ok r => some r.1
  | .error _ => none

/-- The branch of a 2-bit flag selector and a 1-bit expected value (R110). -/
def branchOp (sel : BitVec 2) (exp : Bool) (d : Byte) : Op :=
  match sel.toNat, exp with
  | 0, false => .bpl d
  | 0, true => .bmi d
  | 1, false => .bvc d
  | 1, true => .bvs d
  | 2, false => .bcc d
  | 2, true => .bcs d
  | _, false => .bne d
  | _, true => .beq d

/-- The named opcodes other than the branches (R101). -/
def namedOp (op lo hi : Byte) : Option Op :=
  match op.toNat with
  | 0x00 => some .brk
  | 0x08 => some .php
  | 0x18 => some .clc
  | 0x20 => some (.jsr (mkWord hi lo))
  | 0x28 => some .plp
  | 0x38 => some .sec
  | 0x40 => some .rti
  | 0x48 => some .pha
  | 0x58 => some .cli
  | 0x60 => some .rts
  | 0x68 => some .pla
  | 0x78 => some .sei
  | 0x88 => some .dey
  | 0x8A => some .txa
  | 0x98 => some .tya
  | 0x9A => some .txs
  | 0xA8 => some .tay
  | 0xAA => some .tax
  | 0xB8 => some .clv
  | 0xBA => some .tsx
  | 0xC8 => some .iny
  | 0xCA => some .dex
  | 0xD8 => some .cld
  | 0xE8 => some .inx
  | 0xEA => some .nop
  | 0xF8 => some .sed
  | 0x4C => some (.jmp (mkWord hi lo))
  | 0x6C => some (.jmpIndirect (mkWord hi lo))
  | _ => none

/-- The memory modes of groups 10 and 00 (R103): bbb 001, 011, 101, 111. -/
def fieldMode (bbb : Nat) (lo hi : Byte) : Option MemMode :=
  match bbb with
  | 1 => some (.zeroPage lo)
  | 3 => some (.absolute (mkWord hi lo))
  | 5 => some (.zeroPageX lo)
  | 7 => some (.absoluteX (mkWord hi lo))
  | _ => none

/-- For STX and LDX, zero-page-X reads as zero-page-Y and absolute-X as absolute-Y (R103). -/
def MemMode.xToY : MemMode → MemMode
  | .zeroPageX a => .zeroPageY a
  | .absoluteX w => .absoluteY w
  | .zeroPage a => .zeroPage a
  | .zeroPageY a => .zeroPageY a
  | .absolute w => .absolute w
  | .absoluteY w => .absoluteY w
  | .indirectX a => .indirectX a
  | .indirectY a => .indirectY a

/-- The modes of group 01 (R103). -/
def group01Src (bbb : Nat) (lo hi : Byte) : Src :=
  match bbb with
  | 0 => .memory (.indirectX lo)
  | 1 => .memory (.zeroPage lo)
  | 2 => .immediate lo
  | 3 => .memory (.absolute (mkWord hi lo))
  | 4 => .memory (.indirectY lo)
  | 5 => .memory (.zeroPageX lo)
  | 6 => .memory (.absoluteY (mkWord hi lo))
  | _ => .memory (.absoluteX (mkWord hi lo))

/-- Group 01, the accumulator ALU group (R103). A store needs an address, and immediate yields none (40_addressing R143). -/
def group01Op (aaa : Nat) (o : Src) : Except Machine.FaultKind Op :=
  match aaa, o with
  | 0, o => .ok (.ora o)
  | 1, o => .ok (.and o)
  | 2, o => .ok (.eor o)
  | 3, o => .ok (.adc o)
  | 4, .memory m => .ok (.sta m)
  | 4, .immediate _ => .error .noAddress
  | 5, o => .ok (.lda o)
  | 6, o => .ok (.cmp o)
  | _, o => .ok (.sbc o)

/-- Immediate at bbb 000, and the memory modes whose bbb is listed (R103). -/
def listedSrc (bbbs : List Nat) (bbb : Nat) (lo hi : Byte) : Option Src :=
  if bbb = 0 then some (.immediate lo) else if bbb ∈ bbbs then (fieldMode bbb lo hi).map .memory else none

/-- The memory modes whose bbb is listed (R103). -/
def listedMode (bbbs : List Nat) (bbb : Nat) (lo hi : Byte) : Option MemMode :=
  if bbb ∈ bbbs then fieldMode bbb lo hi else none

/-- A shift's target: the accumulator at bbb 010, and the memory modes (R103). -/
def shiftTarget (bbb : Nat) (lo hi : Byte) : Option RmwTarget :=
  if bbb = 2 then some .accumulator else (fieldMode bbb lo hi).map .memory

/-- Group 10, the shift and read-modify-write group (R103). -/
def group10Op (aaa bbb : Nat) (lo hi : Byte) : Option Op :=
  match aaa with
  | 0 => (shiftTarget bbb lo hi).map .asl
  | 1 => (shiftTarget bbb lo hi).map .rol
  | 2 => (shiftTarget bbb lo hi).map .lsr
  | 3 => (shiftTarget bbb lo hi).map .ror
  | 4 => (listedMode [1, 3, 5] bbb lo hi).map fun m => .stx m.xToY
  | 5 => (listedSrc [1, 3, 5, 7] bbb lo hi).map fun o =>
      match o with
      | .immediate v => .ldx (.immediate v)
      | .memory m => .ldx (.memory m.xToY)
  | 6 => (listedMode [1, 3, 5, 7] bbb lo hi).map .dec
  | _ => (listedMode [1, 3, 5, 7] bbb lo hi).map .inc

/-- Group 00, the index-register and BIT group (R103). -/
def group00Op (aaa bbb : Nat) (lo hi : Byte) : Option Op :=
  match aaa with
  | 1 => (listedMode [1, 3] bbb lo hi).map .bit
  | 4 => (listedMode [1, 3, 5] bbb lo hi).map .sty
  | 5 => (listedSrc [1, 3, 5, 7] bbb lo hi).map .ldy
  | 6 => (listedSrc [1, 3] bbb lo hi).map .cpy
  | 7 => (listedSrc [1, 3] bbb lo hi).map .cpx
  | _ => none

/-- The field decomposition of a byte that is no named opcode (R102, R103): aaa is bits 7:5, bbb bits 4:2, cc bits 1:0. -/
def fieldOp (op lo hi : Byte) : Except Machine.FaultKind Op :=
  let aaa := (op.extractLsb' 5 3).toNat
  let bbb := (op.extractLsb' 2 3).toNat
  match (op.extractLsb' 0 2).toNat with
  | 0 => ((group00Op aaa bbb lo hi).map Except.ok).getD (.error .unknownOpcode)
  | 1 => group01Op aaa (group01Src bbb lo hi)
  | 2 => ((group10Op aaa bbb lo hi).map Except.ok).getD (.error .unknownOpcode)
  | _ => .error .unknownOpcode

/-- The source's two decode paths (R101): the conditional branches (R110) and the other named opcodes are matched first, and any
other byte is decomposed. The operand bytes `lo` and `hi` are the two bytes after the opcode, used as far as the mode needs. -/
def decodeFields (op lo hi : Byte) : Except Machine.FaultKind Op :=
  if op.extractLsb' 0 5 = 0b10000#5 then .ok (branchOp (op.extractLsb' 6 2) (op.getLsbD 5) lo)
  else ((namedOp op lo hi).map Except.ok).getD (fieldOp op lo hi)

end Sys2Proof
end

