-- ==== Sys2Proof/Machine/Fetch.lean ====
section
/-! DEFINITION. Fetching an instruction (spec 60_exceptions R342, 70_reset R433): the opcode and then its operand bytes, one bus read
each, in increasing address order; and, for the host's checks, placing an instruction where the next fetch reads it. -/

namespace Sys2Proof.Machine

/-- What fetching leaves. -/
inductive Fetched where
  /-- An opcode byte, the instruction it begins, and the state with PC past the instruction. -/
  | instr (op : Byte) (i : Instr) (s : State)
  /-- The machine has entered the faulted state: the opcode byte is no instruction. -/
  | fatal (s : State)

/-- `Fetch16()` (00_scope R14). -/
def fetch16 (s : State) : Word × State :=
  let lo := fetch8 s
  let hi := fetch8 lo.2
  (mkWord hi.1 lo.1, hi.2)

/-- The opcode fetch, the decode and the operand fetches (R342). An illegal opcode faults before any operand byte is consumed, with
the address it came from (30_encoding R104, R302). -/
def fetchInstr (s : State) : Fetched :=
  let f := fetch8 s
  match opcodeForm f.1 with
  | .error k => .fatal (raiseFatal k f.1 s.cpu.pc f.2)
  | .ok (.f1 i) => .instr f.1 i f.2
  | .ok (.f2 mk) =>
    let q := fetch8 f.2
    .instr f.1 (mk q.1) q.2
  | .ok (.f3 mk) =>
    let q := fetch16 f.2
    .instr f.1 (mk q.1) q.2

/-- Whether three bytes at an address are all plain storage, so that what stands in `mem` there is what a fetch reads. -/
def plainCode (cfg : Config) (a : Word) : Bool :=
  plainRead cfg a && plainRead cfg (a + 1) && plainRead cfg (a + 2)

/-- Put bytes into the backing store at consecutive bus addresses. -/
def placeBytes : List Byte → Word → State → State
  | [], _, s => s
  | v :: vs, a, s => placeBytes vs (a + 1) (s.storeByte a v)

/-- Put code where the next fetch reads it. PC stays where it is unless some of the three bytes there belong to a device, where no
byte can be placed; then PC goes to 0x0000, which is RAM. -/
def placeCode (bytes : List Byte) (s : State) : State :=
  let t := if plainCode s.cfg s.cpu.pc then s else s.setPc 0x0000#16
  placeBytes bytes t.cpu.pc t

end Sys2Proof.Machine
end

