-- ==== Sys2Proof/Machine/Timing.lean ====
section
/-! DEFINITION. The graphics timing FSM (spec 60_exceptions R320, R321) and the part of the orchestrator step that drives it (R341). -/

namespace Sys2Proof.Machine

/-- `OnScanline(s)`: the events on entry to a scanline (R321). At 241 the frame is handed to the display (R324) and, with `ctrl[7]`
set, NMI is entered. -/
def onScanline (line : Nat) (s : State) : State :=
  match line with
  | 0 => s.setGfx (s.gfx.snapshot s.cfg.ntMirror)
  | 1 => s.setGfx (s.gfx.compose s.cfg.ntMirror)
  | 241 =>
    let t := (s.setGfx { s.gfx with vblank := true }).countFrame
    if t.gfx.nmiEnabled then nmiEntry t else t
  | 261 => s.setGfx { s.gfx with vblank := false }
  | _ => s

/-- One turn of the loop of `advance` (R320): a scanline completes. -/
def nextScanline (s : State) : State :=
  let line := (s.gfx.scanline + 1) % 262
  onScanline line (s.setGfx { s.gfx with dot := s.gfx.dot - 341, scanline := line })

/-- `k` turns of the loop of `advance`. -/
def scanlines : Nat → State → State
  | 0, s => s
  | k + 1, s => scanlines k (nextScanline s)

/-- `advance(n)` (R320). The loop runs while the dot count is at least 341, which is (dot + n) / 341 turns: each takes 341 away and
nothing else in a turn changes the dot count (log 12). -/
def advance (n : Nat) (s : State) : State :=
  if s.fault.isSome then s
  else scanlines ((s.gfx.dot + n) / 341) (s.setGfx { s.gfx with dot := s.gfx.dot + n })

/-- What the orchestrator does after the instruction (R341): three dots for each cycle to be passed on. `before` is the cycle count
when the step began. With `intCyclesReachGraphics` the cycles since `lastCycles` are passed, interrupt cycles among them; without it
the instruction's own cycles, so that interrupt cycles never reach the graphics unit (log 7). The difference is never
negative in a run (log 13). -/
def catchUp (before : Nat) (s : State) : State :=
  if s.cfg.intCyclesReachGraphics then advance (3 * (s.cycles - s.lastCycles)) (s.setLastCycles s.cycles)
  else
    let t := advance (3 * (s.cycles - before)) (s.setLastCycles s.cycles)
    t.setLastCycles t.cycles

end Sys2Proof.Machine
end

