-- ==== Sys2Proof/Machine/Orchestrator.lean ====
section
/-! DEFINITION. The instruction step and the orchestrator step (spec 60_exceptions R341, R342, R345). -/

namespace Sys2Proof.Machine

/-- `runOneInstruction()` (R342): nothing while halted; a decode fault leaves the machine faulted; otherwise the instruction's rule
and then its base cost. -/
def runOneInstruction (s : State) : Host.Outcome State Fault Refusal :=
  if s.halted then .next s
  else
    match fetchInstr s with
    | .fatal t => .next t
    | .instr op i t =>
      match exec i t with
      | .next u => .next (addCycles (cycleTable op) u)
      | .fault r => .fault r
      | .refused r => .refused r

/-- `OrchestratorStep()` (R341). After a decode fault nothing more is written (00_scope R15, R300, log 9). While halted the step changes
nothing: no instruction runs and graphics time stands still (R345), so cycles that an interrupt entry has added wait for the first
step after the halt (log 11). -/
def orchestratorStep (s : State) : Host.Outcome State Fault Refusal :=
  if s.halted then .next s
  else
    match runOneInstruction s with
    | .next t => if t.fault.isSome then .next t else .next (catchUp s.cycles t)
    | .fault r => .fault r
    | .refused r => .refused r

end Sys2Proof.Machine
end

