-- ==== Sys2Proof/Machine/Step.lean ====
section
/-! DEFINITION. The top-level step. A run is a sequence of orchestrator steps and host moves (spec 60_exceptions R344); `step` is one
element of it: the next of the host's moves if there is one, otherwise the orchestrator step (R341). -/

namespace Sys2Proof.Machine

/-- One step. A faulted machine is stuck in its fault: no instruction, interrupt, reset or graphics advance acts (R300). The host's
stop ends the run: from there on the step changes nothing (R344). -/
def step (s : State) : Host.Outcome State Fault Refusal :=
  match s.fault with
  | some f => .fault f
  | none =>
    match s.hostMoves with
    | [] => orchestratorStep s
    | .proceed :: rest => orchestratorStep (s.setHostMoves rest)
    | .stop :: _ => .next s
    | .reset :: rest => .next (hostMove .reset (s.setHostMoves rest))
    | .nmi :: rest => .next (hostMove .nmi (s.setHostMoves rest))
    | .irq :: rest => .next (hostMove .irq (s.setHostMoves rest))
    | .toggleHalt :: rest => .next (hostMove .toggleHalt (s.setHostMoves rest))

/-- `s` with an instruction, given as one number, stored where `step` fetches next, and nothing in the way of that fetch: no fault, no
halt, no host move before it. -/
def State.withFetchWord (s : State) (nbits w : Nat) : State :=
  placeCode (tableBytes nbits w) (((s.setFault none).setHalted false).setHostMoves [])

end Sys2Proof.Machine
end

