-- ==== Sys2Proof/Machine/Loader.lean ====
section
/-! DEFINITION. Power-on and image loading (spec 70_reset R401, R403-R406): from an image and the host's parameters to the initial
state, or to a load error before any state exists. -/

namespace Sys2Proof.Machine

/-- The load-time errors (60_exceptions R301, R404); each records the header, of an image shorter than 16 bytes the bytes there are (log
19, DESIGN CHOICE). -/
inductive LoadError where
  | unsupportedFormat (header : List Byte)
  | imageTooLarge (header : List Byte)
  deriving DecidableEq, Repr

/-- What a header that passes every check says (R403, R404). -/
structure Cartridge where
  prgUnits : PrgUnits
  chrUnits : ChrUnits
  ntMirror : NtMirror
  trainer : Bool
  deriving DecidableEq, Repr

/-- A byte of the image; past its end no check reads one. -/
def imageByte (image : List Byte) (k : Nat) : Byte := image.getD k 0

/-- The container's magic: "NES" then 0x1A (R403). -/
def magic : List Byte := [0x4E, 0x45, 0x53, 0x1A]

/-- `mapper = (byte7 & 0xF0) | (byte6 >> 4)` (R403). -/
def mapperOf (image : List Byte) : Byte := (imageByte image 7 &&& 0xF0#8) ||| (imageByte image 6 >>> 4)

/-- Byte 6 bit 2: a 512-byte trainer follows the header (R403). -/
def trainerOf (image : List Byte) : Bool := (imageByte image 6).getLsbD 2

/-- Where the program segment begins: `o = 16 + 512·trainer` (R405). -/
def prgOffset (trainer : Bool) : Nat := 16 + 512 * trainer.toNat

/-- The mirroring of byte 6: bit 3 four-screen, else bit 0 vertical, else horizontal (R403, R404). -/
def mirrorOf (image : List Byte) : NtMirror :=
  if (imageByte image 6).getLsbD 3 then .fourScreen
  else if (imageByte image 6).getLsbD 0 then .vertical
  else .horizontal

/-- `LoadImage(image)` (R404): the seven checks in order, failing at the first. An image too short for a header (check 1) has whatever
bytes it has recorded as its header, which the spec leaves open (log 19, DESIGN CHOICE). -/
def loadImage (image : List Byte) : Except LoadError Cartridge :=
  let header := image.take 16
  let prg := (imageByte image 4).toNat
  let chr := (imageByte image 5).toNat
  if image.length < 16 then .error (.unsupportedFormat header)
  else if image.take 4 ≠ magic then .error (.unsupportedFormat header)
  else if (imageByte image 7).extractLsb' 2 2 = 0b10#2 then .error (.unsupportedFormat header)
  else if mapperOf image ≠ 0 then .error (.unsupportedFormat header)
  else if prg < 1 then .error (.unsupportedFormat header)
  else if 2 < prg ∨ 1 < chr then .error (.imageTooLarge header)
  else if image.length < prgOffset (trainerOf image) + 16384 * prg + 8192 * chr then .error (.unsupportedFormat header)
  else
    .ok { prgUnits := if prg = 1 then .one else .two
          chrUnits := if chr = 0 then .zero else .one
          ntMirror := mirrorOf image
          trainer := trainerOf image }

/-- Bytes of program code (R405). -/
def prgBytes (u : PrgUnits) : Nat :=
  match u with
  | .one => 16384
  | .two => 32768

/-- The configuration parameters that no header gives (00_scope R9): `ram0` and `vram0` are the power-on contents outside the image
(D7). -/
structure PowerOnParams where
  romWrites : RomWrites
  busMode : BusMode
  intCyclesReachGraphics : Bool
  inputFill : Bool
  ram0 : Memory
  vram0 : Memory
  deriving DecidableEq, Repr

/-- The program-code overlay (R405). -/
def loadMem (c : Cartridge) (ram0 : Memory) (image : List Byte) : Memory :=
  ram0.overlay 0x8000 ((image.drop (prgOffset c.trainer)).take (prgBytes c.prgUnits))

/-- The tile-bitmap overlay (R406): with no tile bitmaps the pattern region is zeroed. -/
def loadVram (c : Cartridge) (vram0 : Memory) (image : List Byte) : Memory :=
  match c.chrUnits with
  | .zero => vram0.overlay 0x0000 (List.replicate 8192 0x00#8)
  | .one => vram0.overlay 0x0000 ((image.drop (prgOffset c.trainer + prgBytes c.prgUnits)).take 8192)

/-- The state before the reset that ends power-on (R401): every unit at its power-on value, memory loaded. -/
def beforeReset (cfg : Config) (mem vram : Memory) : State :=
  { State.reset with cfg := cfg, mem := mem, gfx := { Gfx.powerOn with vram := vram } }

/-- The configuration of a run (R9, R41): what the header gives and what the host gives. -/
def configOf (c : Cartridge) (p : PowerOnParams) : Config :=
  { prgUnits := c.prgUnits, chrUnits := c.chrUnits, ntMirror := c.ntMirror, romWrites := p.romWrites, busMode := p.busMode,
    intCyclesReachGraphics := p.intCyclesReachGraphics, inputFill := p.inputFill }

/-- `PowerOn(image)` (R401; log 16, log 17). -/
def powerOn (p : PowerOnParams) (image : List Byte) : Except LoadError State :=
  match loadImage image with
  | .error e => .error e
  | .ok c => .ok (resetCpu (beforeReset (configOf c p) (loadMem c p.ram0 image) (loadVram c p.vram0 image)))

end Sys2Proof.Machine
end

