-- ==== Sys2Proof/Safety.lean ====
section
/-! DEFINITION. The terms claims are stated in: when the machine is running, which states a run reaches, the machine's invariant, what each
row costs, and what an instruction may change, read from the spec's own lists (the "cycles" and "flags written" columns of 30_encoding
R106, the "is written by" lists of 10_state R21-R24, the stores of files 44 to 47). -/

namespace Sys2Proof.Machine

/-! ### Runs -/

/-- The next step is an orchestrator step that fetches an instruction: no fault, not halted, and no host move pending or a `proceed`
before any other (60_exceptions R344). -/
abbrev State.running (s : State) : Prop :=
  s.fault = none ∧ s.halted = false ∧ (s.hostMoves = [] ∨ s.hostMoves.head? = some .proceed)

/-- The state that orchestrator step runs in: `s` with its `proceed`, if one is pending, consumed, and `s` itself if none is. -/
def State.begun (s : State) : State := { s with hostMoves := s.hostMoves.tail }

/-- The states that steps lead to from one state. -/
inductive Reachable (s : State) : State → Prop where
  | here : Reachable s s
  | next {t u : State} : Reachable s t → step t = .next u → Reachable s u

/-- A safe run of `k` steps: every one of them answers a next state. The step after a decode fault does not. -/
def safeRun (k : Nat) (s : State) : Prop := ∃ t, Sys2Proof.core.run k s = .next t

/-! ### The invariant -/

/-- Every array is canonical and lies inside its size (10_state R40, R42, R43, R51, R52). -/
abbrev Gfx.arraysOk (g : Gfx) : Prop :=
  (g.vram.wf ∧ g.vram.within 16384) ∧ (g.oam.wf ∧ g.oam.within 256) ∧ (g.snapNT.wf ∧ g.snapNT.within 1024) ∧
    (g.snapPal.wf ∧ g.snapPal.within 16) ∧ (g.frame.wf ∧ g.frame.within 61440)

/-- `scanline` in 0..261 and `dot` in 0..340 between steps (R50). -/
abbrev Gfx.rasterOk (g : Gfx) : Prop := g.scanline < 262 ∧ g.dot < 341

/-- `vblank` is set exactly on scanlines 241 to 260 (R46, 60_exceptions R325). -/
abbrev Gfx.vblankOk (g : Gfx) : Prop := g.vblank = decide (241 ≤ g.scanline ∧ g.scanline ≤ 260)

/-- The four entry-0 palette cells hold one value (20_memory R81, R84). -/
abbrev Gfx.paletteOk (g : Gfx) : Prop :=
  g.vram.read 0x3F04 = g.vram.read 0x3F00 ∧ g.vram.read 0x3F08 = g.vram.read 0x3F00 ∧
    g.vram.read 0x3F0C = g.vram.read 0x3F00

/-- The machine's invariant. -/
abbrev State.Inv (s : State) : Prop :=
  (s.mem.wf ∧ s.mem.within 65536) ∧ s.gfx.arraysOk ∧ s.gfx.rasterOk ∧ s.gfx.vblankOk ∧ s.gfx.paletteOk ∧
    s.lastCycles ≤ s.cycles ∧ s.cpu.p.b = false

/-! ### The fatal bytes -/

/-- The 105 bytes that raise a fatal decode fault, as 30_encoding R104 lists them. -/
def fatalBytes : List Nat :=
  [0x02, 0x03, 0x04, 0x07, 0x0B, 0x0C, 0x0F, 0x12, 0x13, 0x14, 0x17, 0x1A, 0x1B, 0x1C, 0x1F,
   0x22, 0x23, 0x27, 0x2B, 0x2F, 0x32, 0x33, 0x34, 0x37, 0x3A, 0x3B, 0x3C, 0x3F, 0x42, 0x43,
   0x44, 0x47, 0x4B, 0x4F, 0x52, 0x53, 0x54, 0x57, 0x5A, 0x5B, 0x5C, 0x5F, 0x62, 0x63, 0x64,
   0x67, 0x6B, 0x6F, 0x72, 0x73, 0x74, 0x77, 0x7A, 0x7B, 0x7C, 0x7F, 0x80, 0x82, 0x83, 0x87,
   0x89, 0x8B, 0x8F, 0x92, 0x93, 0x97, 0x9B, 0x9C, 0x9E, 0x9F, 0xA3, 0xA7, 0xAB, 0xAF, 0xB2,
   0xB3, 0xB7, 0xBB, 0xBF, 0xC2, 0xC3, 0xC7, 0xCB, 0xCF, 0xD2, 0xD3, 0xD4, 0xD7, 0xDA, 0xDB,
   0xDC, 0xDF, 0xE2, 0xE3, 0xE7, 0xEB, 0xEF, 0xF2, 0xF3, 0xF4, 0xF7, 0xFA, 0xFB, 0xFC, 0xFF]

/-! ### Base costs -/

/-- The cost of reading an operand in a memory mode (R106, R420): indexing and page crossing add nothing of their own (R421). -/
def readCost (m : MemMode) : Nat :=
  match m with
  | .zeroPage _ => 3
  | .zeroPageX _ | .zeroPageY _ | .absolute _ | .absoluteX _ | .absoluteY _ => 4
  | .indirectY _ => 5
  | .indirectX _ => 6

/-- The cost of a store in a memory mode (R106, R420). -/
def storeCost (m : MemMode) : Nat :=
  match m with
  | .zeroPage _ => 3
  | .zeroPageX _ | .zeroPageY _ | .absolute _ => 4
  | .absoluteX _ | .absoluteY _ => 5
  | .indirectX _ | .indirectY _ => 6

/-- The cost of a read-modify-write in a memory mode (R106, R420); the last four modes have no row. -/
def rmwCost (m : MemMode) : Nat :=
  match m with
  | .zeroPage _ => 5
  | .zeroPageX _ | .absolute _ => 6
  | .absoluteX _ => 7
  | .zeroPageY _ | .absoluteY _ | .indirectX _ | .indirectY _ => 0

/-- The base cost of a row by its mnemonic and mode, as the opcode map's cycles column has it (30_encoding R106, 70_reset R420). No
operand value and no state enters it (R421). -/
def baseCost (o : Op) : Nat :=
  match o with
  | .adc o | .sbc o | .and o | .ora o | .eor o | .cmp o | .cpx o | .cpy o | .lda o | .ldx o | .ldy o =>
    match o with
    | .immediate _ => 2
    | .memory m => readCost m
  | .bit m => readCost m
  | .sta m | .stx m | .sty m => storeCost m
  | .inc m | .dec m => rmwCost m
  | .asl t | .lsr t | .rol t | .ror t =>
    match t with
    | .accumulator => 2
    | .memory m => rmwCost m
  | .bpl _ | .bmi _ | .bvc _ | .bvs _ | .bcc _ | .bcs _ | .bne _ | .beq _ => 2
  | .jmp _ | .pha | .php => 3
  | .pla | .plp => 4
  | .jmpIndirect _ => 5
  | .jsr _ | .rts | .rti => 6
  | .brk => 7
  | .clc | .cld | .cli | .clv | .sec | .sed | .sei | .tax | .tay | .txa | .tya | .tsx | .txs | .inx | .iny | .dex | .dey
  | .nop => 2

/-! ### What an instruction may change -/

/-- A flag by name (R26). -/
inductive FlagName where
  | n
  | v
  | b
  | d
  | i
  | z
  | c
  deriving DecidableEq, Repr

/-- One flag of P. -/
def Flags.get (p : Flags) (f : FlagName) : Bool :=
  match f with
  | .n => p.n
  | .v => p.v
  | .b => p.b
  | .d => p.d
  | .i => p.i
  | .z => p.z
  | .c => p.c

/-- The "flags written" column of the opcode map (30_encoding R106). -/
def flagsWritten (o : Op) : List FlagName :=
  match o with
  | .adc _ | .sbc _ => [.n, .v, .z, .c]
  | .cmp _ | .cpx _ | .cpy _ | .asl _ | .lsr _ | .rol _ | .ror _ => [.n, .z, .c]
  | .bit _ => [.n, .v, .z]
  | .and _ | .ora _ | .eor _ | .lda _ | .ldx _ | .ldy _ | .inc _ | .dec _ => [.n, .z]
  | .tax | .tay | .txa | .tya | .tsx | .inx | .iny | .dex | .dey | .pla => [.n, .z]
  | .plp | .rti => [.n, .v, .d, .i, .z, .c]
  | .brk | .cli | .sei => [.i]
  | .clc | .sec => [.c]
  | .clv => [.v]
  | .cld | .sed => [.d]
  | .sta _ | .stx _ | .sty _ | .pha | .php | .txs | .nop => []
  | .bpl _ | .bmi _ | .bvc _ | .bvs _ | .bcc _ | .bcs _ | .bne _ | .beq _ => []
  | .jmp _ | .jmpIndirect _ | .jsr _ | .rts => []

/-- The instructions that write A (R21). -/
def writesA (o : Op) : Bool :=
  match o with
  | .adc _ | .sbc _ | .and _ | .ora _ | .eor _ | .lda _ | .pla | .txa | .tya => true
  | .asl t | .lsr t | .rol t | .ror t => decide (t = .accumulator)
  | .cmp _ | .cpx _ | .cpy _ | .ldx _ | .ldy _ | .bit _ | .sta _ | .stx _ | .sty _ | .inc _ | .dec _ | .bpl _
  | .bmi _ | .bvc _ | .bvs _ | .bcc _ | .bcs _ | .bne _ | .beq _ | .jmp _ | .jmpIndirect _ | .jsr _ | .rts | .rti
  | .brk | .pha | .php | .plp | .clc | .cld | .cli | .clv | .sec | .sed | .sei | .tax | .tay | .tsx | .txs | .inx
  | .iny | .dex | .dey | .nop => false

/-- The instructions that write X (R22). -/
def writesX (o : Op) : Bool :=
  match o with
  | .ldx _ | .tax | .tsx | .inx | .dex => true
  | .adc _ | .sbc _ | .and _ | .ora _ | .eor _ | .cmp _ | .cpx _ | .cpy _ | .lda _ | .ldy _ | .bit _ | .sta _
  | .stx _ | .sty _ | .inc _ | .dec _ | .asl _ | .lsr _ | .rol _ | .ror _ | .bpl _ | .bmi _ | .bvc _ | .bvs _
  | .bcc _ | .bcs _ | .bne _ | .beq _ | .jmp _ | .jmpIndirect _ | .jsr _ | .rts | .rti | .brk | .pha | .php | .pla
  | .plp | .clc | .cld | .cli | .clv | .sec | .sed | .sei | .tay | .txa | .tya | .txs | .iny | .dey | .nop => false

/-- The instructions that write Y (R23). -/
def writesY (o : Op) : Bool :=
  match o with
  | .ldy _ | .tay | .iny | .dey => true
  | .adc _ | .sbc _ | .and _ | .ora _ | .eor _ | .cmp _ | .cpx _ | .cpy _ | .lda _ | .ldx _ | .bit _ | .sta _
  | .stx _ | .sty _ | .inc _ | .dec _ | .asl _ | .lsr _ | .rol _ | .ror _ | .bpl _ | .bmi _ | .bvc _ | .bvs _
  | .bcc _ | .bcs _ | .bne _ | .beq _ | .jmp _ | .jmpIndirect _ | .jsr _ | .rts | .rti | .brk | .pha | .php | .pla
  | .plp | .clc | .cld | .cli | .clv | .sec | .sed | .sei | .tax | .txa | .tya | .tsx | .txs | .inx | .dex | .nop => false

/-- The instructions that write S (R24): TXS and every stack user. -/
def writesS (o : Op) : Bool :=
  match o with
  | .jsr _ | .rts | .rti | .brk | .pha | .php | .pla | .plp | .txs => true
  | .adc _ | .sbc _ | .and _ | .ora _ | .eor _ | .cmp _ | .cpx _ | .cpy _ | .lda _ | .ldx _ | .ldy _ | .bit _
  | .sta _ | .stx _ | .sty _ | .inc _ | .dec _ | .asl _ | .lsr _ | .rol _ | .ror _ | .bpl _ | .bmi _ | .bvc _
  | .bvs _ | .bcc _ | .bcs _ | .bne _ | .beq _ | .jmp _ | .jmpIndirect _ | .clc | .cld | .cli | .clv | .sec | .sed
  | .sei | .tax | .tay | .txa | .tya | .tsx | .inx | .iny | .dex | .dey | .nop => false

/-- The instructions that write PC beyond the fetch (47_control). -/
def writesPc (o : Op) : Bool :=
  match o with
  | .bpl _ | .bmi _ | .bvc _ | .bvs _ | .bcc _ | .bcs _ | .bne _ | .beq _ | .jmp _ | .jmpIndirect _ | .jsr _ | .rts
  | .rti | .brk => true
  | .adc _ | .sbc _ | .and _ | .ora _ | .eor _ | .cmp _ | .cpx _ | .cpy _ | .lda _ | .ldx _ | .ldy _ | .bit _
  | .sta _ | .stx _ | .sty _ | .inc _ | .dec _ | .asl _ | .lsr _ | .rol _ | .ror _ | .pha | .php | .pla | .plp | .clc
  | .cld | .cli | .clv | .sec | .sed | .sei | .tax | .tay | .txa | .tya | .tsx | .txs | .inx | .iny | .dex | .dey
  | .nop => false

/-- The memory mode of a read operand, if it has one. -/
def sourceMode (o : Src) : Option MemMode :=
  match o with
  | .immediate _ => none
  | .memory m => some m

/-- The memory target of a shift, if it has one. -/
def targetMode (t : RmwTarget) : Option MemMode :=
  match t with
  | .accumulator => none
  | .memory m => some m

/-- The memory mode an operation reads its operand through. -/
def readMode (o : Op) : Option MemMode :=
  match o with
  | .adc o | .sbc o | .and o | .ora o | .eor o | .cmp o | .cpx o | .cpy o | .lda o | .ldx o | .ldy o => sourceMode o
  | .bit m | .inc m | .dec m => some m
  | .asl t | .lsr t | .rol t | .ror t => targetMode t
  | .sta _ | .stx _ | .sty _ | .bpl _ | .bmi _ | .bvc _ | .bvs _ | .bcc _ | .bcs _ | .bne _ | .beq _ | .jmp _
  | .jmpIndirect _ | .jsr _ | .rts | .rti | .brk | .pha | .php | .pla | .plp | .clc | .cld | .cli | .clv | .sec
  | .sed | .sei | .tax | .tay | .txa | .tya | .tsx | .txs | .inx | .iny | .dex | .dey | .nop => none

/-- The memory mode an operation stores through. -/
def storeMode (o : Op) : Option MemMode :=
  match o with
  | .sta m | .stx m | .sty m | .inc m | .dec m => some m
  | .asl t | .lsr t | .rol t | .ror t => targetMode t
  | .adc _ | .sbc _ | .and _ | .ora _ | .eor _ | .cmp _ | .cpx _ | .cpy _ | .lda _ | .ldx _ | .ldy _ | .bit _
  | .bpl _ | .bmi _ | .bvc _ | .bvs _ | .bcc _ | .bcs _ | .bne _ | .beq _ | .jmp _ | .jmpIndirect _ | .jsr _ | .rts
  | .rti | .brk | .pha | .php | .pla | .plp | .clc | .cld | .cli | .clv | .sec | .sed | .sei | .tax | .tay | .txa
  | .tya | .tsx | .txs | .inx | .iny | .dex | .dey | .nop => none

/-- The pointer bytes that JMP absolute-indirect reads, as data (R142). -/
def pointerReads (o : Op) : List Word :=
  match o with
  | .jmpIndirect w => [w, mkWord (hiByte w) (loByte w + 1)]
  | .adc _ | .sbc _ | .and _ | .ora _ | .eor _ | .cmp _ | .cpx _ | .cpy _ | .lda _ | .ldx _ | .ldy _ | .bit _
  | .sta _ | .stx _ | .sty _ | .inc _ | .dec _ | .asl _ | .lsr _ | .rol _ | .ror _ | .bpl _ | .bmi _ | .bvc _
  | .bvs _ | .bcc _ | .bcs _ | .bne _ | .beq _ | .jmp _ | .jsr _ | .rts | .rti | .brk | .pha | .php | .pla | .plp
  | .clc | .cld | .cli | .clv | .sec | .sed | .sei | .tax | .tay | .txa | .tya | .tsx | .txs | .inx | .iny | .dex
  | .dey | .nop => []

/-- The stack bytes an instruction stores to (R250, R270, R310). -/
def pushedAddrs (o : Op) (sp : Byte) : List Word :=
  match o with
  | .pha | .php => [stackAddr sp]
  | .jsr _ => [stackAddr sp, stackAddr (sp - 1)]
  | .brk => [stackAddr sp, stackAddr (sp - 1), stackAddr (sp - 2)]
  | .adc _ | .sbc _ | .and _ | .ora _ | .eor _ | .cmp _ | .cpx _ | .cpy _ | .lda _ | .ldx _ | .ldy _ | .bit _
  | .sta _ | .stx _ | .sty _ | .inc _ | .dec _ | .asl _ | .lsr _ | .rol _ | .ror _ | .bpl _ | .bmi _ | .bvc _
  | .bvs _ | .bcc _ | .bcs _ | .bne _ | .beq _ | .jmp _ | .jmpIndirect _ | .rts | .rti | .pla | .plp | .clc | .cld
  | .cli | .clv | .sec | .sed | .sei | .tax | .tay | .txa | .tya | .tsx | .txs | .inx | .iny | .dex | .dey | .nop => []

/-- The bus addresses an instruction reads data from, stack and vectors apart: its operand's effective address, and the pointer bytes of
JMP absolute-indirect. -/
def dataReads (o : Op) (s : State) : List Word := ((readMode o).map fun m => (effAddr m s).1).toList ++ pointerReads o

/-- The bus addresses an instruction stores to, in a state where its bytes have been fetched: its effective address, or the stack
bytes it pushes. -/
def storeAddrs (o : Op) (s : State) : List Word :=
  ((storeMode o).map fun m => (effAddr m s).1).toList ++ pushedAddrs o s.cpu.s

/-- A write of the address acts on a device (20_memory R61). -/
def deviceWrite (cfg : Config) (a : Word) : Bool :=
  cfg.busMode == .nes && (inGfxWindow a || a == 0x4014#16 || a == 0x4016#16)

end Sys2Proof.Machine
end

