-- ==== Sys2Proof/Certificates/Slice0/Obligations.lean ====
section
/-! DEFINITION. The statements for the provers. Each docstring names the rules of the spec it formalises; where a clause rests on a
choice of the model's, it names the log entry.

In the statements about instructions, `i.op` is the row's mnemonic with its operand, so one hypothesis `i.op = .adc o` covers every
row of ADC. `exec i s` runs in the state in which the instruction's bytes have been fetched: `s.cpu.pc` is the address of the next
instruction. -/

open Sys2Proof Sys2Proof.Machine

/-! ### Encoding -/

/-- Decoding the bytes of an instruction, with any bytes after them, gives the instruction and those bytes (R100, R106, R111): for
every row and every operand value. -/
def Obligations.DecodeOfEncodeIsTheInstruction : Prop :=
  ∀ (i : Instr) (rest : List Byte), decode (encode i ++ rest) = .ok (i, rest)

/-- Bytes that decode are the encoding of what they decode to: no two words mean one instruction (R106, R107). -/
def Obligations.DecodedBytesAreTheEncoding : Prop :=
  ∀ (bytes : List Byte) (i : Instr) (rest : List Byte), decode bytes = .ok (i, rest) → bytes = encode i ++ rest

/-- The source's two decode paths, named opcodes first and then the aaabbbcc field tables, read every byte as the opcode map does
(R101, R102, R103, R110). -/
def Obligations.FieldDecodeAgreesWithTheMap : Prop :=
  ∀ op lo hi : Byte,
    match opcodeForm op with
    | .error k => decodeFields op lo hi = .error k
    | .ok (.f1 i) => decodeFields op lo hi = .ok i.op
    | .ok (.f2 mk) => decodeFields op lo hi = .ok (mk lo).op
    | .ok (.f3 mk) => decodeFields op lo hi = .ok (mk (mkWord hi lo)).op

/-- A mnemonic in a mode is well formed exactly when it is a row of the opcode map, and then of one row only (R103, R106). -/
def Obligations.WellFormedOperationsAreTheRows : Prop :=
  (∀ o : Op, o.wellFormed = true ↔ ∃ i : Instr, i.op = o) ∧ ∀ i j : Instr, i.op = j.op → i = j

/-- Words written out from the encodings of R106 and from the examples of files 40 to 47 decode to the instructions they stand for. -/
def Obligations.WrittenOutWordsDecode : Prop :=
  decode [0xAD, 0x34, 0x12] = .ok (.ldaAbs 0x1234, []) ∧ decode [0xB5, 0xFF] = .ok (.ldaZpX 0xFF, []) ∧
  decode [0x69, 0x50] = .ok (.adcImm 0x50, []) ∧ decode [0x24, 0x10] = .ok (.bitZp 0x10, []) ∧
  decode [0x6C, 0xFF, 0x02] = .ok (.jmpInd 0x02FF, []) ∧ decode [0x20, 0x00, 0x90] = .ok (.jsr 0x9000, []) ∧
  decode [0x66, 0x10] = .ok (.rorZp 0x10, []) ∧ decode [0x91, 0x10] = .ok (.staIndY 0x10, []) ∧
  decode [0xD0, 0xFB] = .ok (.bne 0xFB, []) ∧ decode [0x08] = .ok (.php, []) ∧ decode [0xF8] = .ok (.sed, []) ∧
  decode [0x9A] = .ok (.txs, []) ∧
  decode [0x00, 0xEA] = .ok (.brk, [0xEA])

/-! ### The step -/

/-- A step runs the instruction that the bus reads give at PC (R342): the opcode and the operand bytes are read one at a time in
increasing address order, each with its side effect where the address is a device's (R74, R433); `exec` runs with PC past them; the
base cost of the row is added, written out by mnemonic and mode (R420, R421, `baseCost`); then the orchestrator advances the graphics
unit (R341, `catchUp`). All of it happens in `q`, which is the state itself, or where a `proceed` is pending before further host moves,
the state with it consumed (R344, log 5). The second clause is the case of plain storage, where the fetch changes nothing but PC. -/
def Obligations.StepRunsTheDecodedInstruction : Prop :=
  (∀ (s : State) (i : Instr),
    s.running →
    let q := s.begun
    let first := busRead q.cpu.pc q
    let second := busRead (q.cpu.pc + 1) first.2
    let third := busRead (q.cpu.pc + 2) second.2
    let fetched : List Byte × State :=
      if i.length = 1 then ([first.1], first.2)
      else if i.length = 2 then ([first.1, second.1], second.2)
      else ([first.1, second.1, third.1], third.2)
    decode fetched.1 = .ok (i, []) →
    let ready : State := { fetched.2 with cpu := { q.cpu with pc := q.cpu.pc + BitVec.ofNat 16 i.length } }
    ∃ t, exec i ready = .next t ∧
      step s = .next (catchUp q.cycles { t with cycles := t.cycles + baseCost i.op })) ∧
  ∀ (s : State) (i : Instr) (rest : List Byte),
    s.running →
    let q := s.begun
    decode [q.byteAt q.cpu.pc, q.byteAt (q.cpu.pc + 1), q.byteAt (q.cpu.pc + 2)] = .ok (i, rest) →
    (∀ k, k < i.length → plainRead q.cfg (q.cpu.pc + BitVec.ofNat 16 k) = true) →
    ∃ t, exec i { q with cpu := { q.cpu with pc := q.cpu.pc + BitVec.ofNat 16 i.length } } = .next t ∧
      step s = .next (catchUp q.cycles { t with cycles := t.cycles + baseCost i.op })

/-- After the instruction the graphics unit advances, three dots for each cycle (R341): with the default `intCyclesReachGraphics` for
every cycle since `lastCycles`, which becomes the cycle count before the advance, and nothing else is done. The clauses without it, that
only the instruction's own cycles are passed and `lastCycles` is set again after the advance, are the model's reading (log 7, DEDUCED),
and that the difference is zero where `lastCycles` exceeds `cycles`, in states no run reaches, is its choice (log 13). So the dots and
the scanline come out as three dots for each of those cycles. -/
def Obligations.CatchUpPassesThreeDotsPerCycle : Prop :=
  ∀ (before : Nat) (s : State),
    let noted : State := { s with lastCycles := s.cycles }
    (s.cfg.intCyclesReachGraphics = true → catchUp before s = advance (3 * (s.cycles - s.lastCycles)) noted) ∧
    (s.cfg.intCyclesReachGraphics = false →
      let u := advance (3 * (s.cycles - before)) noted
      catchUp before s = { u with lastCycles := u.cycles }) ∧
    (s.fault = none → s.gfx.dot < 341 → s.gfx.scanline < 262 →
      let cycles := if s.cfg.intCyclesReachGraphics then s.cycles - s.lastCycles else s.cycles - before
      let t := catchUp before s
      t.gfx.dot = (s.gfx.dot + 3 * cycles) % 341 ∧
        t.gfx.scanline = (s.gfx.scanline + (s.gfx.dot + 3 * cycles) / 341) % 262 ∧
        (s.cfg.intCyclesReachGraphics = true → t.lastCycles = s.cycles) ∧
        (s.cfg.intCyclesReachGraphics = false → t.lastCycles = t.cycles))

/-- From every state, an instruction that the decoder reads from a number is what the very next step runs after `withFetchWord` (the
model's load of one instruction, log 3), at the base cost of its row (R420). -/
def Obligations.PlacedWordIsRunNext : Prop :=
  ∀ (s : State) (nbits w : Nat) (i : Instr), decodeTableWord nbits w = some i →
    let q := s.withFetchWord nbits w
    ∃ t, exec i { q with cpu := { q.cpu with pc := q.cpu.pc + BitVec.ofNat 16 i.length } } = .next t ∧
      step q = .next (catchUp q.cycles { t with cycles := t.cycles + baseCost i.op })

/-- A byte outside the opcode map is one of the 105 of R104; it is `noAddress` for 0x89 and `unknownOpcode` for the others. Fetching it
leaves the state as the fetch left it but for the fault record: the kind, the byte, its address and the registers after the fetch
(R104, R302); a `proceed` that was pending is consumed (log 5). That the fetch answers this state as a next state, with no graphics advance in the same step, is the model's choice
(log 9). -/
def Obligations.IllegalOpcodeEntersTheFaultedState : Prop :=
  (∀ op : Byte, (∃ k, opcodeForm op = .error k) ↔ op.toNat ∈ fatalBytes) ∧
  (∀ (op : Byte) (k : FaultKind), opcodeForm op = .error k → k = if op = 0x89 then .noAddress else .unknownOpcode) ∧
  (∀ s : State, s.running → ∀ k : FaultKind,
    let r := busRead s.cpu.pc s.begun
    opcodeForm r.1 = .error k →
    step s = .next { r.2 with
      cpu := { s.cpu with pc := s.cpu.pc + 1 }
      fault := some (k.record
        { opcode := r.1, addr := s.cpu.pc,
          snapshot := { a := s.cpu.a, x := s.cpu.x, y := s.cpu.y, s := s.cpu.s, pc := s.cpu.pc + 1, p := s.cpu.p.asByte,
                        cycles := s.cycles } }) })

/-- A faulted machine takes no step, no interrupt entry, no reset and no graphics advance (R300, R400, V83). That its step answers the
recorded fault is how the model says that it takes none (log 9, DESIGN CHOICE). -/
def Obligations.FaultedMachineIsStuck : Prop :=
  ∀ (s : State) (f : Fault), s.fault = some f →
    step s = .fault f ∧ nmiEntry s = s ∧ irqEntry s = s ∧ resetCpu s = s ∧ ∀ n, advance n s = s

/-- No step is refused, and a step answers a fault only when the machine is already faulted, which is the model's way to stop (log 9,
DESIGN CHOICE). A step that leaves a fault record has read, at the program counter, the byte the record names, which is 0x89 or one of
the other 104 bytes of R104 (R301, R302); that `unsupportedMode` is unreachable is R143's, in the model by its decoder (log 14,
DEDUCED). -/
def Obligations.OnlyIllegalOpcodesStopTheMachine : Prop :=
  (∀ (s : State) (r : Refusal), step s ≠ .refused r) ∧
  (∀ (s : State) (f : Fault), step s = .fault f → s.fault = some f) ∧
  (∀ (s t : State) (f : Fault), step s = .next t → t.fault = some f →
    ∃ info, info.addr = s.cpu.pc ∧ info.opcode = (busRead s.cpu.pc s).1 ∧
      ((f = .noAddress info ∧ info.opcode = 0x89) ∨
        (f = .unknownOpcode info ∧ info.opcode ≠ 0x89 ∧ info.opcode.toNat ∈ fatalBytes)))

/-- The host's moves, one per step and in order (R343, R345; their queue is the model's, log 5). After `stop` nothing changes. While
halted an orchestrator step changes nothing, cycles that an interrupt entry has added included: graphics time stands still (R345).
That those cycles stay outstanding until the halt ends is the model's reading (log 11, DEDUCED). -/
def Obligations.HostMovesActBetweenSteps : Prop :=
  ∀ (s : State) (rest : List HostMove), s.fault = none →
    (s.hostMoves = .reset :: rest → step s = .next (resetCpu { s with hostMoves := rest })) ∧
    (s.hostMoves = .nmi :: rest → step s = .next (nmiEntry { s with hostMoves := rest })) ∧
    (s.hostMoves = .irq :: rest → step s = .next (irqEntry { s with hostMoves := rest })) ∧
    (s.hostMoves = .toggleHalt :: rest → step s = .next { s with hostMoves := rest, halted := !s.halted }) ∧
    (s.hostMoves = .proceed :: rest → step s = orchestratorStep { s with hostMoves := rest }) ∧
    (s.hostMoves = .stop :: rest → step s = .next s) ∧
    (s.hostMoves = [] → s.halted = true → step s = .next s) ∧
    (s.hostMoves = .proceed :: rest → s.halted = true → step s = .next { s with hostMoves := rest })

/-! ### Every instruction: completion and frame -/

/-- Every row of the opcode map, in every state and with every operand, answers a next state. An instruction is atomic: the graphics
clock, the snapshot and the frame stand still, no host move is consumed, nothing faults, and the live B is never written (R33, R75,
R340, R350). -/
def Obligations.EveryInstructionCompletes : Prop :=
  ∀ (i : Instr) (s : State), ∃ t, exec i s = .next t ∧
    t.cfg = s.cfg ∧ t.fault = s.fault ∧ t.halted = s.halted ∧ t.cycles = s.cycles ∧ t.lastCycles = s.lastCycles ∧
    t.hostMoves = s.hostMoves ∧ t.framesReady = s.framesReady ∧ t.gfx.scanline = s.gfx.scanline ∧ t.gfx.dot = s.gfx.dot ∧
    t.gfx.vblank = s.gfx.vblank ∧ t.gfx.snapNT = s.gfx.snapNT ∧ t.gfx.snapPal = s.gfx.snapPal ∧ t.gfx.frame = s.gfx.frame ∧
    t.cpu.p.b = s.cpu.p.b

/-- FRAME, flags: an instruction leaves every flag alone that the "flags written" column of the opcode map does not list for it (R106,
R30-R37). -/
def Obligations.FlagsOutsideTheColumnAreKept : Prop :=
  ∀ (i : Instr) (s t : State), exec i s = .next t → ∀ f : FlagName, f ∉ flagsWritten i.op → t.cpu.p.get f = s.cpu.p.get f

/-- FRAME, registers: A, X, Y and S are written only by the instructions that R21-R24 list, and PC, beyond the fetch, only by the
control transfers of file 47. -/
def Obligations.RegistersOutsideTheListsAreKept : Prop :=
  ∀ (i : Instr) (s t : State), exec i s = .next t →
    (writesA i.op = false → t.cpu.a = s.cpu.a) ∧ (writesX i.op = false → t.cpu.x = s.cpu.x) ∧
    (writesY i.op = false → t.cpu.y = s.cpu.y) ∧ (writesS i.op = false → t.cpu.s = s.cpu.s) ∧
    (writesPc i.op = false → t.cpu.pc = s.cpu.pc)

/-- FRAME, memory: every byte outside those an instruction stores to reads as before. The stored addresses are the effective address
of STA, STX, STY and the read-modify-writes, the stack bytes of PHA, PHP, JSR and BRK, and none for every other form (R61, R200,
R223-R225, R250, R270, R310). -/
def Obligations.MemoryOutsideTheStoresIsKept : Prop :=
  ∀ (i : Instr) (s t : State), exec i s = .next t →
    ∀ a : Word, (∀ b ∈ storeAddrs i.op s, busIndex s.cfg b ≠ busIndex s.cfg a) → t.byteAt a = s.byteAt a

/-- FRAME, devices: an instruction whose data reads are plain and whose stores go to no device changes nothing of the graphics unit or the
input latch and draws no free value (R66, R67); stack and vector accesses never reach a device. -/
def Obligations.DevicesAreKeptByPlainAccesses : Prop :=
  ∀ (i : Instr) (s t : State), exec i s = .next t →
    (∀ a ∈ dataReads i.op s, plainRead s.cfg a = true) → (∀ a ∈ storeAddrs i.op s, deviceWrite s.cfg a = false) →
    t.gfx = s.gfx ∧ t.input = s.input ∧ t.draws = s.draws

/-! ### Addressing -/

/-- The effective address of every mode that has one, and no state change in computing it: zero-page sums wrap within the page,
absolute sums at 16 bits, and a pointer's high byte is read from the next byte of page zero, wrapping to 0x0000 (R133-R138). -/
def Obligations.EffectiveAddresses : Prop :=
  ∀ (s : State) (a : Byte) (w : Word),
    let x := s.cpu.x.toNat
    let y := s.cpu.y.toNat
    let pointer (p : Nat) : Nat :=
      (s.byteAt (BitVec.ofNat 16 (p % 256))).toNat + 256 * (s.byteAt (BitVec.ofNat 16 ((p + 1) % 256))).toNat
    effAddr (.zeroPage a) s = (BitVec.ofNat 16 a.toNat, s) ∧
    effAddr (.zeroPageX a) s = (BitVec.ofNat 16 ((a.toNat + x) % 256), s) ∧
    effAddr (.zeroPageY a) s = (BitVec.ofNat 16 ((a.toNat + y) % 256), s) ∧
    effAddr (.absolute w) s = (w, s) ∧
    effAddr (.absoluteX w) s = (BitVec.ofNat 16 ((w.toNat + x) % 65536), s) ∧
    effAddr (.absoluteY w) s = (BitVec.ofNat 16 ((w.toNat + y) % 65536), s) ∧
    effAddr (.indirectX a) s = (BitVec.ofNat 16 (pointer (a.toNat + x)), s) ∧
    effAddr (.indirectY a) s = (BitVec.ofNat 16 ((pointer a.toNat + y) % 65536), s)

/-- The operand value (R131, R132): the immediate byte, or the byte of storage at the effective address with nothing changed; a device
address is read through the decoder, so that it has its side effect (R60, R66). -/
def Obligations.OperandValues : Prop :=
  ∀ (s : State) (v : Byte) (m : MemMode),
    readSrc (.immediate v) s = (v, s) ∧
    (plainRead s.cfg (effAddr m s).1 = true → readSrc (.memory m) s = (s.byteAt (effAddr m s).1, s)) ∧
    (plainRead s.cfg (effAddr m s).1 = false →
      readSrc (.memory m) s =
        if inGfxWindow (effAddr m s).1 then gregRead (gfxOffset (effAddr m s).1) s else inputRead s)

/-! ### Flags and arithmetic -/

/-- `loadByte(v); asByte()` is `v | 0x20` for every byte, and every stored flag is the bit of `asByte` that R26 gives it (R26, R150,
R151). -/
def Obligations.StatusByteRoundTrip : Prop :=
  (∀ v : Byte, (Flags.loadByte v).asByte = v ||| 0x20#8) ∧
  (∀ p : Flags, p.asByte.toNat =
    128 * p.n.toNat + 64 * p.v.toNat + 32 + 16 * p.b.toNat + 8 * p.d.toNat + 4 * p.i.toNat + 2 * p.z.toNat + p.c.toNat) ∧
  (∀ p : Flags, Flags.loadByte p.asByte = p)

/-- The flag instructions (R154-R160): each writes one flag and nothing else. -/
def Obligations.FlagInstructionsWriteOneFlag : Prop :=
  ∀ s : State,
    exec .clc s = .next { s with cpu := { s.cpu with p := { s.cpu.p with c := false } } } ∧
    exec .sec s = .next { s with cpu := { s.cpu with p := { s.cpu.p with c := true } } } ∧
    exec .cli s = .next { s with cpu := { s.cpu with p := { s.cpu.p with i := false } } } ∧
    exec .sei s = .next { s with cpu := { s.cpu with p := { s.cpu.p with i := true } } } ∧
    exec .clv s = .next { s with cpu := { s.cpu with p := { s.cpu.p with v := false } } } ∧
    exec .cld s = .next { s with cpu := { s.cpu with p := { s.cpu.p with d := false } } } ∧
    exec .sed s = .next { s with cpu := { s.cpu with p := { s.cpu.p with d := true } } }

/-- ADC (R170, R171): the binary sum of A, the operand and C, with V set when the operand's and the accumulator's signs agree and the
sum's differs, and C from the total. Nothing else changes beyond the operand's read. That V is signed overflow (R177): it is set exactly
when the sum of the signed readings and the carry leaves -128..127. -/
def Obligations.AdcAddsWithCarry : Prop :=
  ∀ (i : Instr) (o : Src) (s : State), i.op = .adc o →
    let r := readSrc o s
    let total := s.cpu.a.toNat + r.1.toNat + s.cpu.p.c.toNat
    exec i s = .next { r.2 with
      cpu := { s.cpu with
        a := BitVec.ofNat 8 total
        p := { s.cpu.p with
          n := decide (128 ≤ total % 256)
          v := decide ((s.cpu.a.msb = r.1.msb) ∧ (BitVec.ofNat 8 total).msb ≠ s.cpu.a.msb)
          z := decide (total % 256 = 0)
          c := decide (255 < total) } } } ∧
    (let signed : Int := s.cpu.a.toInt + r.1.toInt + s.cpu.p.c.toNat
     ((s.cpu.a.msb = r.1.msb ∧ (BitVec.ofNat 8 total).msb ≠ s.cpu.a.msb) ↔ signed < -128 ∨ 127 < signed))

/-- SBC (R172): A minus the operand minus the borrow, modulo 256; C = 1 exactly when there is no borrow, and V exactly when the signed
difference leaves -128..127. -/
def Obligations.SbcSubtractsWithBorrow : Prop :=
  ∀ (i : Instr) (o : Src) (s : State), i.op = .sbc o →
    let r := readSrc o s
    let borrow := 1 - s.cpu.p.c.toNat
    let diff : Int := (s.cpu.a.toNat : Int) - r.1.toNat - borrow
    let signed : Int := s.cpu.a.toInt - r.1.toInt - borrow
    exec i s = .next { r.2 with
      cpu := { s.cpu with
        a := BitVec.ofInt 8 diff
        p := { s.cpu.p with
          n := (BitVec.ofInt 8 diff).msb
          v := decide (signed < -128 ∨ 127 < signed)
          z := decide (diff % 256 = 0)
          c := decide (r.1.toNat + borrow ≤ s.cpu.a.toNat) } } }

/-- The compares (R173-R176): C = 1 when the register is at least the operand, Z when they are equal, N bit 7 of the difference; the
register, V, B, D and I are unchanged. -/
def Obligations.ComparesSetCarryZeroNegative : Prop :=
  ∀ (i : Instr) (o : Src) (s : State),
    let r := readSrc o s
    let result (reg : Byte) : Host.Outcome State Fault Refusal := .next { r.2 with
      cpu := { s.cpu with
        p := { s.cpu.p with
          n := decide (128 ≤ (reg.toNat + 256 - r.1.toNat) % 256)
          z := decide (reg = r.1)
          c := decide (r.1.toNat ≤ reg.toNat) } } }
    (i.op = .cmp o → exec i s = result s.cpu.a) ∧ (i.op = .cpx o → exec i s = result s.cpu.x) ∧
      (i.op = .cpy o → exec i s = result s.cpu.y)

/-- The decimal flag is not applied to arithmetic (R34, R170, R177): ADC and SBC with D complemented give the same result but for D
itself. -/
def Obligations.DecimalFlagIsNotApplied : Prop :=
  ∀ (i : Instr) (o : Src) (s t : State), i.op = .adc o ∨ i.op = .sbc o → exec i s = .next t →
    exec i { s with cpu := { s.cpu with p := { s.cpu.p with d := !s.cpu.p.d } } } =
      .next { t with cpu := { t.cpu with p := { t.cpu.p with d := !t.cpu.p.d } } }

/-- AND, ORA, EOR and BIT (R190-R193). BIT takes N and V from the operand and does not write A. -/
def Obligations.LogicalOperations : Prop :=
  ∀ (i : Instr) (o : Src) (m : MemMode) (s : State),
    let r := readSrc o s
    let toA (v : Byte) : Host.Outcome State Fault Refusal := .next { r.2 with
      cpu := { s.cpu with a := v, p := { s.cpu.p with n := decide (128 ≤ v.toNat), z := decide (v.toNat = 0) } } }
    (i.op = .and o → exec i s = toA (s.cpu.a &&& r.1)) ∧ (i.op = .ora o → exec i s = toA (s.cpu.a ||| r.1)) ∧
    (i.op = .eor o → exec i s = toA (s.cpu.a ^^^ r.1)) ∧
    (i.op = .bit m →
      let q := readSrc (.memory m) s
      exec i s = .next { q.2 with
        cpu := { s.cpu with
          p := { s.cpu.p with
            n := decide (128 ≤ q.1.toNat)
            v := decide (64 ≤ q.1.toNat % 128)
            z := decide ((s.cpu.a &&& q.1).toNat = 0) } } })

/-! ### Shifts and read-modify-write -/

/-- The shifts and rotates on the accumulator (R200-R204): the result goes back to A, C takes the bit shifted out, N and Z follow the
result. -/
def Obligations.AccumulatorShifts : Prop :=
  ∀ s : State,
    let a := s.cpu.a.toNat
    let carry := s.cpu.p.c.toNat
    let toA (result : Nat) (out : Bool) : Host.Outcome State Fault Refusal := .next { s with
      cpu := { s.cpu with
        a := BitVec.ofNat 8 result
        p := { s.cpu.p with n := decide (128 ≤ result), z := decide (result = 0), c := out } } }
    exec .aslAcc s = toA (2 * a % 256) (decide (128 ≤ a)) ∧ exec .lsrAcc s = toA (a / 2) (decide (a % 2 = 1)) ∧
    exec .rolAcc s = toA ((2 * a + carry) % 256) (decide (128 ≤ a)) ∧
    exec .rorAcc s = toA (a / 2 + 128 * carry) (decide (a % 2 = 1))

/-- Read-modify-write on memory (R200-R206): one read and one write at the effective address, then C (shifts and rotates only), N and Z.
The address may be a device's: the read and the write are bus accesses. -/
def Obligations.MemoryReadModifyWrites : Prop :=
  ∀ (i : Instr) (m : MemMode) (s : State),
    let ea := (effAddr m s).1
    let r := busRead ea s
    let v := r.1.toNat
    let carry := s.cpu.p.c.toNat
    let written (result : Nat) (out : Bool) : Host.Outcome State Fault Refusal := .next
      { busWrite ea (BitVec.ofNat 8 result) r.2 with
        cpu := { s.cpu with p := { s.cpu.p with n := decide (128 ≤ result), z := decide (result = 0), c := out } } }
    (i.op = .asl (.memory m) → exec i s = written (2 * v % 256) (decide (128 ≤ v))) ∧
    (i.op = .lsr (.memory m) → exec i s = written (v / 2) (decide (v % 2 = 1))) ∧
    (i.op = .rol (.memory m) → exec i s = written ((2 * v + carry) % 256) (decide (128 ≤ v))) ∧
    (i.op = .ror (.memory m) → exec i s = written (v / 2 + 128 * carry) (decide (v % 2 = 1))) ∧
    (i.op = .inc m → exec i s = written ((v + 1) % 256) s.cpu.p.c) ∧
    (i.op = .dec m → exec i s = written ((v + 255) % 256) s.cpu.p.c)

/-! ### Loads, stores, transfers, increments -/

/-- LDA, LDX and LDY (R220-R222). -/
def Obligations.LoadsSetRegisterAndFlags : Prop :=
  ∀ (i : Instr) (o : Src) (s : State),
    let r := readSrc o s
    let p : Flags := { s.cpu.p with n := decide (128 ≤ r.1.toNat), z := decide (r.1.toNat = 0) }
    (i.op = .lda o → exec i s = .next { r.2 with cpu := { s.cpu with a := r.1, p := p } }) ∧
    (i.op = .ldx o → exec i s = .next { r.2 with cpu := { s.cpu with x := r.1, p := p } }) ∧
    (i.op = .ldy o → exec i s = .next { r.2 with cpu := { s.cpu with y := r.1, p := p } })

/-- STA, STX and STY (R223-R225, R61, R144): the target is not read. A plain address stores the byte at its index in the backing
store, a register of the graphics window, the sprite DMA or the input latch receives it without a store, and with `romWrites` =
ignore the cartridge window drops it. -/
def Obligations.StoresGoWhereTheDecoderSends : Prop :=
  ∀ (i : Instr) (m : MemMode) (s : State) (v : Byte),
    (i.op = .sta m ∧ v = s.cpu.a) ∨ (i.op = .stx m ∧ v = s.cpu.x) ∨ (i.op = .sty m ∧ v = s.cpu.y) →
    let ea := (effAddr m s).1
    (plainWrite s.cfg ea = true → exec i s = .next { s with mem := s.mem.write (busIndex s.cfg ea) v }) ∧
    (s.cfg.busMode = .nes → 0x2000 ≤ ea.toNat → ea.toNat ≤ 0x3FFF →
      exec i s = .next { s with gfx := s.gfx.regWrite s.cfg.ntMirror (BitVec.ofNat 3 (ea.toNat % 8)) v }) ∧
    (s.cfg.busMode = .nes → ea = 0x4014 → exec i s = .next (spriteDma v s)) ∧
    (s.cfg.busMode = .nes → ea = 0x4016 → exec i s = .next (inputWrite v s)) ∧
    (s.cfg.busMode = .nes → 0x8000 ≤ ea.toNat → s.cfg.romWrites = .ignore → exec i s = .next s)

/-- The transfers, the register increments and decrements, and NOP (R226-R236): TXS alone leaves the flags. -/
def Obligations.TransfersAndIncrements : Prop :=
  ∀ s : State,
    let p (v : Byte) : Flags := { s.cpu.p with n := decide (128 ≤ v.toNat), z := decide (v.toNat = 0) }
    let up (v : Byte) : Byte := BitVec.ofNat 8 ((v.toNat + 1) % 256)
    let down (v : Byte) : Byte := BitVec.ofNat 8 ((v.toNat + 255) % 256)
    exec .tax s = .next { s with cpu := { s.cpu with x := s.cpu.a, p := p s.cpu.a } } ∧
    exec .tay s = .next { s with cpu := { s.cpu with y := s.cpu.a, p := p s.cpu.a } } ∧
    exec .txa s = .next { s with cpu := { s.cpu with a := s.cpu.x, p := p s.cpu.x } } ∧
    exec .tya s = .next { s with cpu := { s.cpu with a := s.cpu.y, p := p s.cpu.y } } ∧
    exec .tsx s = .next { s with cpu := { s.cpu with x := s.cpu.s, p := p s.cpu.s } } ∧
    exec .txs s = .next { s with cpu := { s.cpu with s := s.cpu.x } } ∧
    exec .inx s = .next { s with cpu := { s.cpu with x := up s.cpu.x, p := p (up s.cpu.x) } } ∧
    exec .iny s = .next { s with cpu := { s.cpu with y := up s.cpu.y, p := p (up s.cpu.y) } } ∧
    exec .dex s = .next { s with cpu := { s.cpu with x := down s.cpu.x, p := p (down s.cpu.x) } } ∧
    exec .dey s = .next { s with cpu := { s.cpu with y := down s.cpu.y, p := p (down s.cpu.y) } } ∧
    exec .nop s = .next s

/-! ### Stack and control -/

/-- PHA, PHP, PLA and PLP (R250-R255): the stack byte is at index 0x100 + S in both bus modes, S wraps within 8 bits, PHP pushes B and
bit 5 as 1 with the live flags unchanged, and PLP keeps B. A pull right after a push gives the byte back and restores S (R256). -/
def Obligations.StackInstructions : Prop :=
  ∀ s : State,
    let top := s.mem.read (0x100 + (s.cpu.s.toNat + 1) % 256)
    exec .pha s = .next { s with
      mem := s.mem.write (0x100 + s.cpu.s.toNat) s.cpu.a
      cpu := { s.cpu with s := BitVec.ofNat 8 ((s.cpu.s.toNat + 255) % 256) } } ∧
    exec .php s = .next { s with
      mem := s.mem.write (0x100 + s.cpu.s.toNat) { s.cpu.p with b := true }.asByte
      cpu := { s.cpu with s := BitVec.ofNat 8 ((s.cpu.s.toNat + 255) % 256) } } ∧
    exec .pla s = .next { s with
      cpu := { s.cpu with
        s := BitVec.ofNat 8 ((s.cpu.s.toNat + 1) % 256)
        a := top
        p := { s.cpu.p with n := decide (128 ≤ top.toNat), z := decide (top.toNat = 0) } } } ∧
    exec .plp s = .next { s with
      cpu := { s.cpu with
        s := BitVec.ofNat 8 ((s.cpu.s.toNat + 1) % 256)
        p := { Flags.loadByte top with b := s.cpu.p.b } } } ∧
    ∀ v : Byte, pull (push v s) = (v, { s with mem := s.mem.write (0x100 + s.cpu.s.toNat) v })

/-- The eight branches (R260-R268): taken, PC moves by the signed displacement modulo 0x10000; not taken, nothing changes. -/
def Obligations.BranchesTestOneFlag : Prop :=
  ∀ (s : State) (d : Byte),
    let after (taken : Bool) : Host.Outcome State Fault Refusal := .next { s with
      cpu := { s.cpu with pc := if taken then BitVec.ofInt 16 ((s.cpu.pc.toNat : Int) + d.toInt) else s.cpu.pc } }
    exec (.bpl d) s = after (!s.cpu.p.n) ∧ exec (.bmi d) s = after s.cpu.p.n ∧
    exec (.bvc d) s = after (!s.cpu.p.v) ∧ exec (.bvs d) s = after s.cpu.p.v ∧
    exec (.bcc d) s = after (!s.cpu.p.c) ∧ exec (.bcs d) s = after s.cpu.p.c ∧
    exec (.bne d) s = after (!s.cpu.p.z) ∧ exec (.beq d) s = after s.cpu.p.z

/-- JMP (R142, R269): absolute, and through a pointer whose high byte is read from the same page. -/
def Obligations.JumpsAndThePagewrap : Prop :=
  ∀ (s : State) (w : Word),
    let lo := busRead w s
    let hi := busRead (BitVec.ofNat 16 (w.toNat / 256 * 256 + (w.toNat + 1) % 256)) lo.2
    exec (.jmpAbs w) s = .next { s with cpu := { s.cpu with pc := w } } ∧
    exec (.jmpInd w) s = .next { hi.2 with
      cpu := { s.cpu with pc := BitVec.ofNat 16 (256 * hi.1.toNat + lo.1.toNat) } }

/-- JSR (R270): the address of the JSR's last byte goes on the stack, high byte first, and PC to the target. RTS (R271): PC is the
pulled address plus one. -/
def Obligations.SubroutineCallAndReturn : Prop :=
  ∀ (s : State) (w : Word),
    let ret := (s.cpu.pc.toNat + 65535) % 65536
    let at1 := s.mem.read (0x100 + (s.cpu.s.toNat + 1) % 256)
    let at2 := s.mem.read (0x100 + (s.cpu.s.toNat + 2) % 256)
    exec (.jsr w) s = .next { s with
      mem := (s.mem.write (0x100 + s.cpu.s.toNat) (BitVec.ofNat 8 (ret / 256))).write
        (0x100 + (s.cpu.s.toNat + 255) % 256) (BitVec.ofNat 8 ret)
      cpu := { s.cpu with pc := w, s := BitVec.ofNat 8 ((s.cpu.s.toNat + 254) % 256) } } ∧
    exec .rts s = .next { s with
      cpu := { s.cpu with
        pc := BitVec.ofNat 16 ((256 * at2.toNat + at1.toNat + 1) % 65536)
        s := BitVec.ofNat 8 ((s.cpu.s.toNat + 2) % 256) } }

/-- A subroutine that keeps S and the two stacked bytes returns to the instruction after its call (R270, R271): RTS from any state `u`
with the S and the two stack bytes that JSR left, whatever else the subroutine has done to the registers, memory and devices. -/
def Obligations.ReturnFollowsTheCall : Prop :=
  ∀ (s t u : State) (w : Word), exec (.jsr w) s = .next t →
    u.cpu.s = t.cpu.s →
    (∀ k, k < 2 →
      let a := 0x100 + (s.cpu.s.toNat + (256 - k)) % 256
      u.mem.read a = t.mem.read a) →
    exec .rts u = .next { u with cpu := { u.cpu with s := s.cpu.s, pc := s.cpu.pc } }

/-- BRK (R273, R310): PC past the padding byte, high byte first, then the status with B and bit 5 set; I set, the live B and D unchanged,
PC from 0xFFFE whatever I was. RTI (R272): every flag but B from the pulled byte, then PC, with no +1. -/
def Obligations.SoftwareInterruptAndReturn : Prop :=
  ∀ s : State,
    let ret := (s.cpu.pc.toNat + 1) % 65536
    let at1 := s.mem.read (0x100 + (s.cpu.s.toNat + 1) % 256)
    let at2 := s.mem.read (0x100 + (s.cpu.s.toNat + 2) % 256)
    let at3 := s.mem.read (0x100 + (s.cpu.s.toNat + 3) % 256)
    exec .brk s = .next { s with
      mem := ((s.mem.write (0x100 + s.cpu.s.toNat) (BitVec.ofNat 8 (ret / 256))).write
        (0x100 + (s.cpu.s.toNat + 255) % 256) (BitVec.ofNat 8 ret)).write
        (0x100 + (s.cpu.s.toNat + 254) % 256) { s.cpu.p with b := true }.asByte
      cpu := { s.cpu with
        s := BitVec.ofNat 8 ((s.cpu.s.toNat + 253) % 256)
        p := { s.cpu.p with i := true }
        pc := BitVec.ofNat 16 (256 * (s.byteAt 0xFFFF).toNat + (s.byteAt 0xFFFE).toNat) } } ∧
    exec .rti s = .next { s with
      cpu := { s.cpu with
        s := BitVec.ofNat 8 ((s.cpu.s.toNat + 3) % 256)
        p := { Flags.loadByte at1 with b := s.cpu.p.b }
        pc := BitVec.ofNat 16 (256 * at3.toNat + at2.toNat) } }

/-! ### Interrupts and reset -/

/-- NMI and IRQ (R310-R312): PC and the live status on the stack, I set, PC from the vector, `intCycles` = 7 more cycles, and nothing
else; NMI is never masked, and an IRQ made while I is set is dropped. -/
def Obligations.InterruptEntries : Prop :=
  ∀ s : State, s.fault = none →
    let entry (vec : Nat) : State := { s with
      mem := ((s.mem.write (0x100 + s.cpu.s.toNat) (BitVec.ofNat 8 (s.cpu.pc.toNat / 256))).write
        (0x100 + (s.cpu.s.toNat + 255) % 256) (BitVec.ofNat 8 s.cpu.pc.toNat)).write
        (0x100 + (s.cpu.s.toNat + 254) % 256) s.cpu.p.asByte
      cpu := { s.cpu with
        s := BitVec.ofNat 8 ((s.cpu.s.toNat + 253) % 256)
        p := { s.cpu.p with i := true }
        pc := BitVec.ofNat 16
          (256 * (s.byteAt (BitVec.ofNat 16 (vec + 1))).toNat + (s.byteAt (BitVec.ofNat 16 vec)).toNat) }
      cycles := s.cycles + 7 }
    nmiEntry s = entry 0xFFFA ∧ irqEntry s = if s.cpu.p.i then s else entry 0xFFFE

/-- The return undoes the entry (R310, R313, R273): RTI from any state `u` with the S and the three stack bytes that the entry left,
whatever else the handler has done to the registers, memory and devices, restores S, every flag but B, and PC: the interrupted PC
for an NMI and for an IRQ made while I is clear, the address after the padding byte for BRK. B stays as the handler has it. -/
def Obligations.ReturnFromInterruptUndoesTheEntry : Prop :=
  ∀ s t u : State,
    u.cpu.s = t.cpu.s →
    (∀ k, k < 3 →
      let a := 0x100 + (s.cpu.s.toNat + (256 - k)) % 256
      u.mem.read a = t.mem.read a) →
    let resumed (pc : Word) : Host.Outcome State Fault Refusal := .next { u with
      cpu := { u.cpu with s := s.cpu.s, p := { s.cpu.p with b := u.cpu.p.b }, pc := pc } }
    (s.fault = none → t = nmiEntry s → exec .rti u = resumed s.cpu.pc) ∧
    (s.fault = none → s.cpu.p.i = false → t = irqEntry s → exec .rti u = resumed s.cpu.pc) ∧
    (exec .brk s = .next t → exec .rti u = resumed (s.cpu.pc + 1))

/-- The CPU reset (R400): registers and flags at their reset values, PC the word at 0xFFFC, and no other state changed. The values of A,
X, Y and S are the spec's own choice (D6). -/
def Obligations.ResetReinitializesTheProcessor : Prop :=
  ∀ s : State, s.fault = none →
    resetCpu s = { s with
      cpu :=
        { a := 0x00, x := 0x00, y := 0x00, s := 0xFD
          pc := BitVec.ofNat 16 (256 * (s.byteAt 0xFFFD).toNat + (s.byteAt 0xFFFC).toNat)
          p := { n := false, v := false, b := false, d := false, i := true, z := false, c := false } } }

/-- The state after power-on and reset (R55, R401): the fixed values, and the same state as resetting a machine whose units are at their
power-on values. The configuration and the empty memory are the model's choice (log 1, log 2), the three fields marked so too (log 4,
5, 6). -/
def Obligations.ResetStateValues : Prop :=
  let s := State.reset
  s.cpu.p.asByte = 0x24 ∧ s.cpu.s = 0xFD ∧ (s.cpu.a, s.cpu.x, s.cpu.y) = (0x00, 0x00, 0x00) ∧
    (s.cycles, s.lastCycles, s.halted) = (0, 0, false) ∧ s.fault = none ∧
    (s.gfx.ctrl, s.gfx.mask, s.gfx.oamAddr, s.gfx.oamDataLast, s.gfx.scrollLast) = (0x00, 0x00, 0x00, 0x00, 0x00) ∧
    (s.gfx.vblank, s.gfx.w, s.gfx.ptr, s.gfx.buffer) = (false, false, 0x0000, 0x00) ∧
    (s.gfx.scanline, s.gfx.dot) = (0, 0) ∧ (s.input.capture, s.input.latch) = (false, 0x00) ∧
    (∀ k, s.gfx.oam.read k = 0 ∧ s.gfx.snapNT.read k = 0 ∧ s.gfx.snapPal.read k = 0 ∧ s.gfx.frame.read k = 0) ∧
    s = resetCpu (beforeReset Config.reference [] [])

/-! ### The bus -/

/-- The RAM mirror (R62, R63): in nes mode the addresses a, a + 0x800, a + 0x1000 and a + 0x1800 name one byte: a write through any of
them is read through every other. -/
def Obligations.RamMirrorsNameOneByte : Prop :=
  ∀ (s : State) (a j k : Nat) (v : Byte), s.cfg.busMode = .nes → a < 0x800 → j < 4 → k < 4 →
    let t := busWrite (BitVec.ofNat 16 (a + j * 0x800)) v s
    t = { s with mem := s.mem.write a v } ∧ busRead (BitVec.ofNat 16 (a + k * 0x800)) t = (v, t)

/-- The graphics-register window (R64): in nes mode every access at an address of 0x2000-0x3FFF is the access of the graphics register
that its low three bits name, the same as at 0x2000 plus those bits, and never touches the backing store. -/
def Obligations.GraphicsWindowMirrors : Prop :=
  ∀ (s : State) (a : Word) (v : Byte), s.cfg.busMode = .nes → 0x2000 ≤ a.toNat → a.toNat ≤ 0x3FFF →
    let r : BitVec 3 := BitVec.ofNat 3 (a.toNat % 8)
    let reg : Word := BitVec.ofNat 16 (0x2000 + a.toNat % 8)
    busRead a s = gregRead r s ∧ busWrite a v s = { s with gfx := s.gfx.regWrite s.cfg.ntMirror r v } ∧
      busRead a s = busRead reg s ∧ busWrite a v s = busWrite reg v s ∧ (busRead a s).2.mem = s.mem ∧
      (busWrite a v s).mem = s.mem

/-- The cartridge window (R65): with a 16 KB image in nes mode the two halves name the same bytes, with 32 KB the window is the identity;
a write stores or is dropped by `romWrites`. -/
def Obligations.CartridgeWindow : Prop :=
  ∀ (s : State) (a : Word) (v : Byte), s.cfg.busMode = .nes → 0x8000 ≤ a.toNat →
    let index := if s.cfg.prgUnits = .one then 0x8000 + a.toNat % 0x4000 else a.toNat
    busRead a s = (s.mem.read index, s) ∧
      busWrite a v s = if s.cfg.romWrites = .store then { s with mem := s.mem.write index v } else s

/-- Plain storage (R66, R67): 0x4000-0x4013, 0x4015 and 0x4017-0x7FFF read and write their own byte and nothing else; a read of 0x4014
is plain. In flat mode every address is so (D24). -/
def Obligations.PlainStorage : Prop :=
  ∀ (s : State) (a : Word) (v : Byte),
    (s.cfg.busMode = .flat ∨ (0x4000 ≤ a.toNat ∧ a.toNat ≤ 0x7FFF ∧ a ≠ 0x4014 ∧ a ≠ 0x4016) →
      busRead a s = (s.mem.read a.toNat, s) ∧ busWrite a v s = { s with mem := s.mem.write a.toNat v }) ∧
    busRead 0x4014 s = (s.mem.read 0x4014, s)

/-- The input latch (R88, R89): bit 0 of any byte written to 0x4016 is the capture mode, and a write of 1 there captures the host's button
byte. A read gives the latch's bit 0 under 0x40 and, unless capturing, shifts the fill bit in from above: so after a strobe, a byte
with bit 0 set and then one with it clear, the first eight reads give the buttons from bit 0 up and every later read the fill bit.
The button byte is a free value, `hostButtons` at the draw count, and the count going up by one is the model's own (log 4, DESIGN
CHOICE). -/
def Obligations.InputStrobeReadsTheButtons : Prop :=
  ∀ (s : State) (v w : Byte), s.cfg.busMode = .nes →
    let buttons := Config.hostButtons s.draws
    let shifted : Byte := BitVec.ofNat 8 (s.input.latch.toNat / 2 + 128 * s.cfg.inputFill.toNat)
    let strobed := busWrite 0x4016 w (busWrite 0x4016 v s)
    let reads (k : Nat) : State := Nat.iterate (fun t => (busRead 0x4016 t).2) k strobed
    (v.getLsbD 0 = true →
      busWrite 0x4016 v s = { s with input := { capture := true, latch := buttons }, draws := s.draws + 1 }) ∧
    (v.getLsbD 0 = false → busWrite 0x4016 v s = { s with input := { s.input with capture := false } }) ∧
    busRead 0x4016 s =
      (0x40 ||| (s.input.latch &&& 1),
        if s.input.capture then s else { s with input := { s.input with latch := shifted } }) ∧
    (v.getLsbD 0 = true → w.getLsbD 0 = false →
      strobed = { s with input := { capture := false, latch := buttons }, draws := s.draws + 1 } ∧
      (∀ k, k < 8 → (busRead 0x4016 (reads k)).1 = 0x40 ||| (BitVec.ofBool (buttons.getLsbD k)).setWidth 8) ∧
      (∀ k, 8 ≤ k → (busRead 0x4016 (reads k)).1 = 0x40 ||| (BitVec.ofBool s.cfg.inputFill).setWidth 8))

/-- Sprite DMA (R90, R338): in nes mode a write of v to 0x4014 copies the 256 bytes of page v of the backing store into the sprite table
from index 0, and changes nothing else. Where in the backing store a byte of the page lies is `Norm` (R62) as a number: the RAM
mirror, the eight-byte register block, the mirror of a 16 KB image, and every other address itself. -/
def Obligations.SpriteDmaCopiesAPage : Prop :=
  ∀ (s : State) (v : Byte), s.cfg.busMode = .nes →
    let t := busWrite 0x4014 v s
    let index (a : Nat) : Nat :=
      if a < 0x2000 then a % 0x800
      else if a < 0x4000 then 0x2000 + a % 8
      else if 0x8000 ≤ a ∧ s.cfg.prgUnits = .one then 0x8000 + a % 0x4000
      else a
    t = { s with gfx := { s.gfx with oam := t.gfx.oam } } ∧
      (∀ k, k < 256 → t.gfx.oam.read k = s.mem.read (index (256 * v.toNat + k))) ∧
      t.gfx.oam.wf ∧ t.gfx.oam.within 256

/-! ### The graphics unit -/

/-- Reading the status register or a write-only register (R332-R334): bit 7 is vblank and bits 6:0 a free value, the address latch is
cleared and vblank is not; a write-only register gives a free value and changes nothing but the draw count (log 4). It holds of
every free value. -/
def Obligations.StatusAndWriteOnlyReads : Prop :=
  ∀ s : State, s.cfg.busMode = .nes →
    (∃ v : Byte, (decide (128 ≤ v.toNat) = s.gfx.vblank) ∧
      busRead 0x2002 s = (v, { s with gfx := { s.gfx with w := false }, draws := s.draws + 1 })) ∧
    (∀ r : Nat, r ∈ [0, 1, 3, 4, 5, 6] →
      ∃ v : Byte, busRead (BitVec.ofNat 16 (0x2000 + r)) s = (v, { s with draws := s.draws + 1 }))

/-- Writing the registers at offsets 0 to 5 (R335): each is stored and has no other effect, and a status write is ignored. Two address
writes (R336), from any state of the pointer, leave it at the 16-bit value modulo 0x4000. -/
def Obligations.RegisterWritesAndAddressLatch : Prop :=
  ∀ (s : State) (v lo : Byte), s.cfg.busMode = .nes →
    busWrite 0x2000 v s = { s with gfx := { s.gfx with ctrl := v } } ∧
    busWrite 0x2001 v s = { s with gfx := { s.gfx with mask := v } } ∧
    busWrite 0x2002 v s = s ∧
    busWrite 0x2003 v s = { s with gfx := { s.gfx with oamAddr := v } } ∧
    busWrite 0x2004 v s = { s with gfx := { s.gfx with oamDataLast := v } } ∧
    busWrite 0x2005 v s = { s with gfx := { s.gfx with scrollLast := v } } ∧
    (s.gfx.w = false →
      busWrite 0x2006 v s = { s with gfx := { s.gfx with ptr := BitVec.ofNat 16 (256 * v.toNat), w := true } } ∧
      busWrite 0x2006 lo (busWrite 0x2006 v s) =
        { s with gfx := { s.gfx with ptr := BitVec.ofNat 16 ((256 * v.toNat + lo.toNat) % 0x4000) } }) ∧
    (s.gfx.w = true →
      busWrite 0x2006 v s =
        { s with gfx := { s.gfx with ptr := BitVec.ofNat 16 ((s.gfx.ptr.toNat + v.toNat) % 65536 % 0x4000), w := false } })

/-- The data register (R337): a write stores at the pointer; a read gives the buffered byte and refills the buffer, or in palette space
the fresh byte with the buffer kept; each advances the pointer by 1 or 32, modulo 0x4000. -/
def Obligations.DataRegister : Prop :=
  ∀ (s : State) (v : Byte), s.cfg.busMode = .nes →
    let inc := if s.gfx.ctrl.getLsbD 2 then 32 else 1
    let next : Word := BitVec.ofNat 16 ((s.gfx.ptr.toNat + inc) % 0x4000)
    let here : Word := BitVec.ofNat 16 (s.gfx.ptr.toNat % 0x4000)
    let byte := s.gfx.vread s.cfg.ntMirror here
    busWrite 0x2007 v s = { s with gfx := { s.gfx.vwrite s.cfg.ntMirror s.gfx.ptr v with ptr := next } } ∧
    (0x3F00 ≤ here.toNat → busRead 0x2007 s = (byte, { s with gfx := { s.gfx with ptr := next } })) ∧
    (here.toNat < 0x3F00 →
      busRead 0x2007 s = (s.gfx.buffer, { s with gfx := { s.gfx with ptr := next, buffer := byte } }))

/-- Graphics-space normalization (R82, R83), as numbers: the space wraps at 0x4000, 0x3000-0x3EFF maps back by 0x1000, the palette mirrors
every 0x20 bytes, and the nametables mirror by the cartridge's mode. -/
def Obligations.GraphicsNormalization : Prop :=
  ∀ (mode : NtMirror) (a : Word),
    let b := a.toNat % 0x4000
    let nt (c : Nat) : Nat :=
      match mode with
      | .fourScreen => c
      | .vertical => 0x2000 + c % 0x800
      | .horizontal => 0x2000 + c % 0x1000 / 0x800 * 0x400 + c % 0x400
    (b < 0x2000 → (vnorm mode a).toNat = b) ∧
    (0x2000 ≤ b → b < 0x3000 → (vnorm mode a).toNat = nt b) ∧
    (0x3000 ≤ b → b < 0x3F00 → (vnorm mode a).toNat = nt (b - 0x1000)) ∧
    (0x3F00 ≤ b → (vnorm mode a).toNat = 0x3F00 + b % 0x20)

/-- VRAM reads and writes, with the palette's entry-0 alias (R80, R81, R84, T9). A read gives the byte at the normalized index. A write
stores there, into all of 0x3F00, 0x3F04, 0x3F08 and 0x3F0C if it is one of them, leaves every other index as it was, and changes
nothing else of the graphics unit. So a byte written is read back through every address of the same cell, and an entry-0 write through
all four. -/
def Obligations.GraphicsReadAfterWrite : Prop :=
  ∀ (mode : NtMirror) (g : Gfx) (a b : Word) (v : Byte),
    let cell := (vnorm mode a).toNat
    let zero (c : Nat) : Prop := c = 0x3F00 ∨ c = 0x3F04 ∨ c = 0x3F08 ∨ c = 0x3F0C
    g.vread mode b = g.vram.read (vnorm mode b).toNat ∧
    g.vwrite mode a v = { g with vram := (g.vwrite mode a v).vram } ∧
    (∀ k, k = cell ∨ (zero cell ∧ zero k) → (g.vwrite mode a v).vram.read k = v) ∧
    (∀ k, k ≠ cell → ¬ (zero cell ∧ zero k) → (g.vwrite mode a v).vram.read k = g.vram.read k) ∧
    ((vnorm mode b).toNat = cell → (g.vwrite mode a v).vread mode b = v) ∧
    (zero cell → zero (vnorm mode b).toNat → (g.vwrite mode a v).vread mode b = v) ∧
    ((vnorm mode b).toNat ≠ cell → ¬ (zero cell ∧ zero (vnorm mode b).toNat) →
      (g.vwrite mode a v).vread mode b = g.vread mode b)

/-- `advance` (R320, R321, R325, T8). Up to the end of the scanline it adds the dots and does nothing else; past it, it takes 341 dots
away, enters the next scanline with that scanline's events (`onScanline`), and goes on with what is left. So the dot count and the
scanline after n dots carry the remainder, and advancing by a and then by b is advancing by a + b: the same counters and the same
events in the same order. -/
def Obligations.AdvanceCountsAndSplits : Prop :=
  (∀ (n : Nat) (s : State), s.fault = none → s.gfx.dot + n < 341 →
    advance n s = { s with gfx := { s.gfx with dot := s.gfx.dot + n } }) ∧
  (∀ (n : Nat) (s : State), s.fault = none → 341 ≤ s.gfx.dot + n →
    let line := (s.gfx.scanline + 1) % 262
    let entered := onScanline line { s with gfx := { s.gfx with dot := s.gfx.dot + n - 341, scanline := line } }
    advance n s = advance 0 entered ∧ (s.gfx.dot + n < 682 → advance n s = entered)) ∧
  (∀ (n : Nat) (s : State), s.fault = none → s.gfx.scanline < 262 →
    (advance n s).gfx.dot = (s.gfx.dot + n) % 341 ∧
      (advance n s).gfx.scanline = (s.gfx.scanline + (s.gfx.dot + n) / 341) % 262) ∧
  (∀ (a b : Nat) (s : State), advance b (advance a s) = advance (a + b) s)

/-- The events of a scanline (R321, R324): the snapshot on 0, the frame composed on 1, vblank set and the frame handed over on 241, with
NMI exactly when `ctrl[7]` is set, vblank cleared on 261, and nothing on any other. That the hand-over is `framesReady` going up by
one is the model's choice (log 6). -/
def Obligations.ScanlineEvents : Prop :=
  ∀ (line : Nat) (s : State),
    onScanline 0 s = { s with gfx := s.gfx.snapshot s.cfg.ntMirror } ∧
    onScanline 1 s = { s with gfx := s.gfx.compose s.cfg.ntMirror } ∧
    (let t : State := { s with gfx := { s.gfx with vblank := true }, framesReady := s.framesReady + 1 }
     onScanline 241 s = if 128 ≤ s.gfx.ctrl.toNat then nmiEntry t else t) ∧
    onScanline 261 s = { s with gfx := { s.gfx with vblank := false } } ∧
    (line ∉ [0, 1, 241, 261] → onScanline line s = s)

/-- The composer's snapshot (R322): the 1,024 bytes of the nametable that `ctrl[1:0]` selects and the 16 background palette entries. The
composed frame (R323), cell by cell and pixel by pixel as the rule's loops write it. Neither changes anything else. -/
def Obligations.ComposerSnapshotAndPixels : Prop :=
  ∀ (mode : NtMirror) (g : Gfx),
    (let t := g.snapshot mode
     t = { g with snapNT := t.snapNT, snapPal := t.snapPal } ∧
     (∀ k, k < 1024 →
       t.snapNT.read k = g.vread mode (BitVec.ofNat 16 (0x2000 + 0x400 * (g.ctrl.toNat % 4) + k))) ∧
     (∀ k, k < 16 → t.snapPal.read k = g.vread mode (BitVec.ofNat 16 (0x3F00 + k)))) ∧
    g.compose mode = { g with frame := (g.compose mode).frame } ∧
    ∀ row col x y : Nat, row < 30 → col < 32 → x < 8 → y < 8 →
      let bank := if g.ctrl.getLsbD 4 then 0x1000 else 0x0000
      let tile := (g.snapNT.read (row * 32 + col)).toNat
      let attr := (g.snapNT.read (0x3C0 + row / 4 * 8 + col / 4)).toNat
      let q := 2 * (row % 4 / 2) + col % 4 / 2
      let pal := attr / 4 ^ q % 4
      let lo := g.vread mode (BitVec.ofNat 16 (bank + 16 * tile + y))
      let hi := g.vread mode (BitVec.ofNat 16 (bank + 16 * tile + 8 + y))
      let p := 2 * (hi.getLsbD (7 - x)).toNat + (lo.getLsbD (7 - x)).toNat
      (g.compose mode).frame.read (256 * (row * 8 + y) + (col * 8 + x)) = g.snapPal.read (4 * pal + p)

/-! ### Loading -/

/-- `LoadImage` (R403, R404): the seven checks, each failure with its error and the header, and the configuration when all pass. That
the header recorded for an image shorter than 16 bytes is the bytes there are is the model's choice (log 19, DESIGN CHOICE). -/
def Obligations.LoaderChecks : Prop :=
  ∀ image : List Byte,
    let byte (k : Nat) : Nat := (image.getD k 0).toNat
    let prg := byte 4
    let chr := byte 5
    let mapper := byte 7 / 16 * 16 + byte 6 / 16
    let trainer := byte 6 / 4 % 2
    let goodFormat : Prop := 16 ≤ image.length ∧ (byte 0 = 0x4E ∧ byte 1 = 0x45 ∧ byte 2 = 0x53 ∧ byte 3 = 0x1A) ∧
      byte 7 / 4 % 4 ≠ 2 ∧ mapper = 0 ∧ 1 ≤ prg
    let fits : Prop := prg ≤ 2 ∧ chr ≤ 1
    let longEnough : Prop := 16 + 512 * trainer + 16384 * prg + 8192 * chr ≤ image.length
    (¬ goodFormat → loadImage image = .error (.unsupportedFormat (image.take 16))) ∧
    (goodFormat → ¬ fits → loadImage image = .error (.imageTooLarge (image.take 16))) ∧
    (goodFormat → fits → ¬ longEnough → loadImage image = .error (.unsupportedFormat (image.take 16))) ∧
    (goodFormat → fits → longEnough →
      loadImage image = .ok
        { prgUnits := if prg = 1 then .one else .two
          chrUnits := if chr = 0 then .zero else .one
          ntMirror := if byte 6 / 8 % 2 = 1 then .fourScreen else if byte 6 % 2 = 1 then .vertical else .horizontal
          trainer := decide (trainer = 1) })

/-- Power-on (R401, R404, R405, R406): an image that fails a check gives that error and no state. One that passes gives a state, in which
the program code lies at 0x8000 and the tile bitmaps at graphics 0x0000, zeros where there are none, every other byte is the given
power-on content, and the rest is as a reset leaves it. That an image in flat mode is laid out as in nes mode is the model's choice
(log 16); so is taking any list as a power-on content (log 17). -/
def Obligations.PowerOnLaysOutTheImage : Prop :=
  ∀ (q : PowerOnParams) (image : List Byte),
    (∀ e : LoadError, loadImage image = .error e → powerOn q image = .error e) ∧
    ∀ c : Cartridge, loadImage image = .ok c → ∃ s, powerOn q image = .ok s ∧
      let o := 16 + 512 * c.trainer.toNat
      let prg := if c.prgUnits = .one then 16384 else 32768
      (∀ k, s.mem.read k =
        if 0x8000 ≤ k ∧ k < 0x8000 + prg then image.getD (o + (k - 0x8000)) 0 else q.ram0.read k) ∧
      (∀ k, s.gfx.vram.read k =
        if k < 0x2000 then (if c.chrUnits = .one then image.getD (o + prg + k) 0 else 0) else q.vram0.read k) ∧
      s.cfg = { prgUnits := c.prgUnits, chrUnits := c.chrUnits, ntMirror := c.ntMirror, romWrites := q.romWrites,
                busMode := q.busMode, intCyclesReachGraphics := q.intCyclesReachGraphics, inputFill := q.inputFill } ∧
      s = { State.reset with
        cfg := s.cfg
        mem := s.mem
        gfx := { State.reset.gfx with vram := s.gfx.vram }
        cpu := { State.reset.cpu with
          pc := BitVec.ofNat 16 (256 * (s.byteAt 0xFFFD).toNat + (s.byteAt 0xFFFC).toNat) } }

/-! ### Invariants -/

/-- The invariant holds in the state after reset. Its memory clauses, the equal entry-0 palette cells among them, hold there because the
model's reset state takes `ram0` and `vram0` empty (log 1, DESIGN CHOICE); the spec leaves them open, and other contents need not meet
them (log 17). -/
def Obligations.ResetStateMeetsTheInvariant : Prop := State.reset.Inv

/-- Every step keeps the invariant: canonical arrays inside their sizes, scanline and dot in range, vblank exactly on scanlines 241 to
260, the four entry-0 palette cells equal, `lastCycles` at most `cycles`, and the live B clear (R33, R46, R50, R81, R325). -/
def Obligations.EveryStepKeepsTheInvariant : Prop :=
  ∀ s t : State, s.Inv → step s = .next t → t.Inv

/-- The configuration never changes during a run (R41): in every state that steps lead to from a state, it is what it was. -/
def Obligations.ConfigurationIsFixed : Prop := ∀ s t : State, Reachable s t → t.cfg = s.cfg
end

