-- ==== Sys2Proof/Laws/Memory.lean ====
section
/-! SUPPORT. The laws of byte arrays: what each operation reads as afterwards, and that each keeps the canonical form. The read laws
hold of every list, canonical or not. -/

namespace Sys2Proof.Machine

@[simp] theorem Memory.read_nil (a : Nat) : Memory.read [] a = Memory.unlisted := rfl

theorem Memory.read_cons (c : Host.Cell) (m : Memory) (a : Nat) :
    Memory.read (c :: m) a = if c.1 = a then c.2 else Memory.read m a := rfl

/-- An index that no entry has reads as unlisted. -/
theorem Memory.read_of_not_mem (m : Memory) (a : Nat) (h : ∀ c ∈ m, c.1 ≠ a) : Memory.read m a = Memory.unlisted := by
  induction m with
  | nil => rfl
  | cons c m ih =>
    rw [Memory.read_cons, if_neg (h c List.mem_cons_self)]
    exact ih fun d hd => h d (List.mem_cons_of_mem _ hd)

/-- Reading an array laid out in two parts: the first part decides where it has an entry. -/
theorem Memory.read_append (m k : Memory) (a : Nat) :
    Memory.read (m ++ k) a = if ∃ c ∈ m, c.1 = a then Memory.read m a else Memory.read k a := by
  induction m with
  | nil => simp
  | cons c m ih =>
    rw [List.cons_append, Memory.read_cons, Memory.read_cons, ih]
    by_cases h : c.1 = a <;> simp [h]

/-- Keeping only some indexes changes no byte at a kept index. -/
theorem Memory.read_filter_keep (m : Memory) (p : Nat → Bool) (a : Nat) (h : p a = true) :
    Memory.read (m.filter fun c => p c.1) a = Memory.read m a := by
  induction m with
  | nil => rfl
  | cons c m ih =>
    by_cases hc : p c.1 = true
    · rw [List.filter_cons_of_pos (by simpa using hc), Memory.read_cons, Memory.read_cons, ih]
    · rw [List.filter_cons_of_neg (by simpa using hc), ih, Memory.read_cons, if_neg]
      rintro rfl
      exact hc h

/-- An index that is not kept reads as unlisted. -/
theorem Memory.read_filter_drop (m : Memory) (p : Nat → Bool) (a : Nat) (h : p a = false) :
    Memory.read (m.filter fun c => p c.1) a = Memory.unlisted := by
  apply Memory.read_of_not_mem
  intro c hc
  have := (List.mem_filter.mp hc).2
  rintro rfl
  simp [h] at this

theorem Memory.read_erase (m : Memory) (a b : Nat) :
    Memory.read (Memory.erase m a) b = if a = b then Memory.unlisted else Memory.read m b := by
  unfold Memory.erase
  by_cases h : a = b
  · rw [if_pos h, Memory.read_filter_drop m (fun k => k != a) b (by simp [h])]
  · rw [if_neg h, Memory.read_filter_keep m (fun k => k != a) b (by simp [Ne.symm h])]

theorem Memory.read_place (a : Nat) (v : Byte) (m : Memory) (b : Nat) (h : ∀ c ∈ m, c.1 ≠ a) :
    Memory.read (Memory.place a v m) b = if a = b then v else Memory.read m b := by
  induction m with
  | nil => simp [Memory.place, Memory.read_cons]
  | cons c m ih =>
    have hc := h c List.mem_cons_self
    have ih := ih fun d hd => h d (List.mem_cons_of_mem _ hd)
    unfold Memory.place
    split
    · rw [Memory.read_cons]
    · rw [Memory.read_cons, ih, Memory.read_cons]
      by_cases h1 : c.1 = b
      · have : a ≠ b := fun h2 => hc (h1.trans h2.symm)
        simp [h1, this]
      · simp [h1]

/-- No entry of an array has an index that was erased. -/
theorem Memory.erase_ne (m : Memory) (a : Nat) : ∀ c ∈ Memory.erase m a, c.1 ≠ a := by
  intro c hc
  simpa using (List.mem_filter.mp hc).2

/-- Reading after a write: the written index gives the value, every other index what it gave before. -/
theorem Memory.read_write (m : Memory) (a : Nat) (v : Byte) (b : Nat) :
    Memory.read (Memory.write m a v) b = if a = b then v else Memory.read m b := by
  unfold Memory.write
  split
  · next h => rw [Memory.read_erase, h]
  · rw [Memory.read_place _ _ _ _ (Memory.erase_ne m a), Memory.read_erase]
    by_cases h : a = b <;> simp [h]

@[simp] theorem Memory.read_write_same (m : Memory) (a : Nat) (v : Byte) : Memory.read (Memory.write m a v) a = v := by
  simp [Memory.read_write]

theorem Memory.read_write_other (m : Memory) {a b : Nat} (v : Byte) (h : a ≠ b) :
    Memory.read (Memory.write m a v) b = Memory.read m b := by
  simp [Memory.read_write, h]

/-- Keeping some entries keeps the canonical form. -/
theorem Memory.wf_filter (m : Memory) (p : Host.Cell → Bool) (h : Memory.wf m) : Memory.wf (m.filter p) :=
  ⟨h.1.filter _, fun c hc => h.2 c (List.mem_of_mem_filter hc)⟩

theorem Memory.wf_erase (m : Memory) (a : Nat) (h : Memory.wf m) : Memory.wf (Memory.erase m a) := Memory.wf_filter m _ h

theorem Memory.mem_place (a : Nat) (v : Byte) (m : Memory) (d : Host.Cell) :
    d ∈ Memory.place a v m ↔ d = (a, v) ∨ d ∈ m := by
  induction m with
  | nil => simp [Memory.place]
  | cons c m ih =>
    unfold Memory.place
    split
    · simp
    · simp [ih, or_left_comm]

theorem Memory.wf_place (a : Nat) (v : Byte) (m : Memory) (hv : v ≠ Memory.unlisted) (ha : ∀ c ∈ m, c.1 ≠ a)
    (h : Memory.wf m) : Memory.wf (Memory.place a v m) := by
  refine ⟨?_, ?_⟩
  · obtain ⟨hp, -⟩ := h
    induction m with
    | nil => simp [Memory.place]
    | cons c m ih =>
      obtain ⟨hc, hm⟩ := List.pairwise_cons.mp hp
      unfold Memory.place
      split
      · next hlt =>
        refine List.pairwise_cons.mpr ⟨?_, hp⟩
        intro d hd
        rcases List.mem_cons.mp hd with rfl | hd
        · exact hlt
        · exact Nat.lt_trans hlt (hc d hd)
      · next hge =>
        have hne := ha c List.mem_cons_self
        refine List.pairwise_cons.mpr ⟨?_, ih (fun d hd => ha d (List.mem_cons_of_mem _ hd)) hm⟩
        intro d hd
        rcases (Memory.mem_place a v m d).mp hd with rfl | hd
        · show c.1 < a
          omega
        · exact hc d hd
  · intro c hc
    rcases (Memory.mem_place a v m c).mp hc with rfl | hc
    · exact hv
    · exact h.2 c hc

/-- A write keeps the canonical form. -/
theorem Memory.wf_write (m : Memory) (a : Nat) (v : Byte) (h : Memory.wf m) : Memory.wf (Memory.write m a v) := by
  unfold Memory.write
  split
  · exact Memory.wf_erase m a h
  · next hv => exact Memory.wf_place a v _ hv (Memory.erase_ne m a) (Memory.wf_erase m a h)

/-- A write inside the array's size keeps every entry inside it. -/
theorem Memory.within_write (m : Memory) (a : Nat) (v : Byte) (n : Nat) (ha : a < n) (h : Memory.within m n) :
    Memory.within (Memory.write m a v) n := by
  intro c hc
  unfold Memory.write at hc
  have erased : ∀ c ∈ Memory.erase m a, c.1 < n := fun c hc => h c (List.mem_of_mem_filter hc)
  split at hc
  · exact erased c hc
  · rcases (Memory.mem_place a v _ c).mp hc with rfl | hc
    · exact ha
    · exact erased c hc

theorem Memory.mem_cellsOfFn (f : Nat → Byte) (n i : Nat) (c : Host.Cell) :
    c ∈ Memory.cellsOfFn f i n ↔ (i ≤ c.1 ∧ c.1 < i + n) ∧ c.2 = f c.1 ∧ c.2 ≠ Memory.unlisted := by
  induction n generalizing i with
  | zero => simp [Memory.cellsOfFn]
  | succ n ih =>
    obtain ⟨k, v⟩ := c
    unfold Memory.cellsOfFn
    split
    · next h =>
      rw [ih]
      constructor
      · rintro ⟨hk, hv⟩
        exact ⟨by omega, hv⟩
      · rintro ⟨hk, hv, hne⟩
        refine ⟨?_, hv, hne⟩
        have : k ≠ i := by
          rintro rfl
          exact hne (hv.trans h)
        dsimp only at *
        omega
    · next h =>
      rw [List.mem_cons, ih]
      constructor
      · rintro (hc | ⟨hk, hv⟩)
        · cases hc
          exact ⟨by simp, rfl, h⟩
        · exact ⟨by omega, hv⟩
      · rintro ⟨hk, hv, hne⟩
        dsimp only at *
        by_cases hki : k = i
        · subst hki
          exact .inl (by rw [hv])
        · exact .inr ⟨by omega, hv, hne⟩

theorem Memory.mem_ofFn (n : Nat) (f : Nat → Byte) (c : Host.Cell) :
    c ∈ Memory.ofFn n f ↔ c.1 < n ∧ c.2 = f c.1 ∧ c.2 ≠ Memory.unlisted := by
  unfold Memory.ofFn
  rw [Memory.mem_cellsOfFn]
  simp

theorem Memory.pairwise_cellsOfFn (f : Nat → Byte) (n i : Nat) :
    (Memory.cellsOfFn f i n).Pairwise fun c d => c.1 < d.1 := by
  induction n generalizing i with
  | zero => exact List.Pairwise.nil
  | succ n ih =>
    unfold Memory.cellsOfFn
    split
    · exact ih _
    · refine List.pairwise_cons.mpr ⟨fun d hd => ?_, ih _⟩
      exact ((Memory.mem_cellsOfFn f n (i + 1) d).mp hd).1.1

/-- The canonical form, and the size, of an array given by a function. -/
theorem Memory.wf_ofFn (n : Nat) (f : Nat → Byte) : Memory.wf (Memory.ofFn n f) :=
  ⟨Memory.pairwise_cellsOfFn f n 0, fun c hc => ((Memory.mem_ofFn n f c).mp hc).2.2⟩

theorem Memory.within_ofFn (n : Nat) (f : Nat → Byte) : Memory.within (Memory.ofFn n f) n :=
  fun c hc => ((Memory.mem_ofFn n f c).mp hc).1

/-- A canonical array has at most one entry for an index: what it lists is what it reads as. -/
theorem Memory.read_of_mem (m : Memory) (c : Host.Cell) (h : m.Pairwise fun c d => c.1 < d.1) (hc : c ∈ m) :
    Memory.read m c.1 = c.2 := by
  induction m with
  | nil => cases hc
  | cons d m ih =>
    obtain ⟨hd, hm⟩ := List.pairwise_cons.mp h
    rcases List.mem_cons.mp hc with rfl | hc
    · simp [Memory.read_cons]
    · rw [Memory.read_cons, if_neg (Nat.ne_of_lt (hd c hc)), ih hm hc]

/-- Reading an array given by a function. -/
theorem Memory.read_ofFn (n : Nat) (f : Nat → Byte) (a : Nat) :
    Memory.read (Memory.ofFn n f) a = if a < n then f a else Memory.unlisted := by
  by_cases h : a < n ∧ f a ≠ Memory.unlisted
  · rw [if_pos h.1]
    exact Memory.read_of_mem _ (a, f a) (Memory.wf_ofFn n f).1 ((Memory.mem_ofFn n f _).mpr ⟨h.1, rfl, h.2⟩)
  · rw [Memory.read_of_not_mem]
    · by_cases ha : a < n
      · rw [if_pos ha]
        by_contra hne
        exact h ⟨ha, Ne.symm hne⟩
      · rw [if_neg ha]
    · intro c hc hca
      obtain ⟨h1, h2, h3⟩ := (Memory.mem_ofFn n f c).mp hc
      subst hca
      exact h ⟨h1, h2 ▸ h3⟩

theorem Memory.mem_cellsFrom (bytes : List Byte) (base : Nat) (c : Host.Cell) (h : c ∈ Memory.cellsFrom base bytes) :
    base ≤ c.1 ∧ c.1 < base + bytes.length ∧ c.2 ≠ Memory.unlisted := by
  induction bytes generalizing base with
  | nil => cases h
  | cons v vs ih =>
    unfold Memory.cellsFrom at h
    split at h
    · obtain ⟨h1, h2, h3⟩ := ih _ h
      simp only [List.length_cons]
      exact ⟨by omega, by omega, h3⟩
    · next hv =>
      rcases List.mem_cons.mp h with rfl | h
      · exact ⟨Nat.le_refl _, by simp, hv⟩
      · obtain ⟨h1, h2, h3⟩ := ih _ h
        simp only [List.length_cons]
        exact ⟨by omega, by omega, h3⟩

theorem Memory.read_cellsFrom (bytes : List Byte) (base a : Nat) :
    Memory.read (Memory.cellsFrom base bytes) a =
      if base ≤ a then bytes.getD (a - base) Memory.unlisted else Memory.unlisted := by
  induction bytes generalizing base with
  | nil => simp [Memory.cellsFrom]
  | cons v vs ih =>
    unfold Memory.cellsFrom
    split
    · next hv =>
      rw [ih]
      rcases Nat.lt_trichotomy a base with h | rfl | h
      · rw [if_neg (by omega), if_neg (by omega)]
      · rw [if_neg (by omega), if_pos (Nat.le_refl _)]
        simp [hv]
      · rw [if_pos (by omega), if_pos (by omega), show a - base = a - (base + 1) + 1 by omega, List.getD_cons_succ]
    · rw [Memory.read_cons, ih]
      rcases Nat.lt_trichotomy a base with h | rfl | h
      · rw [if_neg (show base ≠ a by omega), if_neg (by omega), if_neg (by omega)]
      · simp
      · rw [if_neg (show base ≠ a by omega), if_pos (by omega), if_pos (by omega),
          show a - base = a - (base + 1) + 1 by omega, List.getD_cons_succ]

/-- Reading an array with bytes laid over it. -/
theorem Memory.read_overlay (m : Memory) (base : Nat) (bytes : List Byte) (a : Nat) :
    Memory.read (Memory.overlay m base bytes) a =
      if base ≤ a ∧ a < base + bytes.length then bytes.getD (a - base) Memory.unlisted else Memory.read m a := by
  unfold Memory.overlay
  have cells := Memory.mem_cellsFrom bytes base
  by_cases h1 : a < base
  · rw [if_neg (by omega), List.append_assoc, Memory.read_append]
    have low := Memory.read_filter_keep m (fun k => decide (k < base)) a (by simpa using h1)
    by_cases hex : ∃ c ∈ m.filter (fun c => decide (c.1 < base)), c.1 = a
    · rw [if_pos hex, low]
    · rw [if_neg hex]
      have hlow : Memory.read m a = Memory.unlisted := by
        rw [← low]
        exact Memory.read_of_not_mem _ _ fun c hc h => hex ⟨c, hc, h⟩
      rw [hlow, Memory.read_of_not_mem]
      intro c hc h
      rcases List.mem_append.mp hc with hc | hc
      · have := (cells c hc).1
        omega
      · have := (List.mem_filter.mp hc).2
        simp at this
        omega
  · have hlow : ¬ ∃ c ∈ m.filter (fun c => decide (c.1 < base)), c.1 = a := by
      rintro ⟨c, hc, rfl⟩
      have := (List.mem_filter.mp hc).2
      simp at this
      omega
    rw [List.append_assoc, Memory.read_append, if_neg hlow, Memory.read_append]
    by_cases h2 : a < base + bytes.length
    · rw [if_pos (show base ≤ a ∧ a < base + bytes.length from ⟨by omega, h2⟩)]
      have hr := Memory.read_cellsFrom bytes base a
      rw [if_pos (by omega)] at hr
      by_cases hex : ∃ c ∈ Memory.cellsFrom base bytes, c.1 = a
      · rw [if_pos hex, hr]
      · rw [if_neg hex, ← hr, Memory.read_of_not_mem _ _ fun c hc h => hex ⟨c, hc, h⟩,
          Memory.read_filter_drop m (fun k => decide (base + bytes.length ≤ k)) a (by simpa using h2)]
    · have hmid : ¬ ∃ c ∈ Memory.cellsFrom base bytes, c.1 = a := by
        rintro ⟨c, hc, rfl⟩
        have := (cells c hc).2.1
        omega
      rw [if_neg (show ¬ (base ≤ a ∧ a < base + bytes.length) from fun h => h2 h.2), if_neg hmid]
      exact Memory.read_filter_keep m (fun k => decide (base + bytes.length ≤ k)) a (by simp; omega)

theorem Memory.pairwise_cellsFrom (bytes : List Byte) (base : Nat) :
    (Memory.cellsFrom base bytes).Pairwise fun c d => c.1 < d.1 := by
  induction bytes generalizing base with
  | nil => exact List.Pairwise.nil
  | cons v vs ih =>
    unfold Memory.cellsFrom
    split
    · exact ih _
    · refine List.pairwise_cons.mpr ⟨fun d hd => ?_, ih _⟩
      have := (Memory.mem_cellsFrom vs (base + 1) d hd).1
      show base < d.1
      omega

/-- An overlay keeps the canonical form. -/
theorem Memory.wf_overlay (m : Memory) (base : Nat) (bytes : List Byte) (h : Memory.wf m) :
    Memory.wf (Memory.overlay m base bytes) := by
  have cells := Memory.mem_cellsFrom bytes base
  unfold Memory.overlay
  refine ⟨?_, ?_⟩
  · rw [List.pairwise_append, List.pairwise_append]
    refine ⟨⟨h.1.filter _, Memory.pairwise_cellsFrom bytes base, ?_⟩, h.1.filter _, ?_⟩
    · intro c hc d hd
      have h1 := (List.mem_filter.mp hc).2
      have h2 := (cells d hd).1
      simp at h1
      omega
    · intro c hc d hd
      have h2 := (List.mem_filter.mp hd).2
      simp at h2
      rcases List.mem_append.mp hc with hc | hc
      · have h1 := (List.mem_filter.mp hc).2
        simp at h1
        omega
      · have h1 := (cells c hc).2.1
        omega
  · intro c hc
    rcases List.mem_append.mp hc with hc | hc
    · rcases List.mem_append.mp hc with hc | hc
      · exact h.2 c (List.mem_of_mem_filter hc)
      · exact (cells c hc).2.2
    · exact h.2 c (List.mem_of_mem_filter hc)

/-- An overlay inside the array's size keeps every entry inside it. -/
theorem Memory.within_overlay (m : Memory) (base : Nat) (bytes : List Byte) (n : Nat) (hb : base + bytes.length ≤ n)
    (h : Memory.within m n) : Memory.within (Memory.overlay m base bytes) n := by
  intro c hc
  unfold Memory.overlay at hc
  rcases List.mem_append.mp hc with hc | hc
  · rcases List.mem_append.mp hc with hc | hc
    · exact h c (List.mem_of_mem_filter hc)
    · have := (Memory.mem_cellsFrom bytes base c hc).2.1
      omega
  · exact h c (List.mem_of_mem_filter hc)

end Sys2Proof.Machine
end

