-- ==== Sys2Proof/Laws/State.lean ====
section
/-! SUPPORT. One lemma per field per update of the state, each true by definition, so that no later proof unfolds a record update. -/

namespace Sys2Proof.Machine

variable (s : State)

@[simp] theorem State.setA_a (v : Byte) : (s.setA v).cpu.a = v := rfl
@[simp] theorem State.setA_x (v : Byte) : (s.setA v).cpu.x = s.cpu.x := rfl
@[simp] theorem State.setA_y (v : Byte) : (s.setA v).cpu.y = s.cpu.y := rfl
@[simp] theorem State.setA_s (v : Byte) : (s.setA v).cpu.s = s.cpu.s := rfl
@[simp] theorem State.setA_pc (v : Byte) : (s.setA v).cpu.pc = s.cpu.pc := rfl
@[simp] theorem State.setA_p (v : Byte) : (s.setA v).cpu.p = s.cpu.p := rfl
@[simp] theorem State.setA_cycles (v : Byte) : (s.setA v).cycles = s.cycles := rfl
@[simp] theorem State.setA_lastCycles (v : Byte) : (s.setA v).lastCycles = s.lastCycles := rfl
@[simp] theorem State.setA_halted (v : Byte) : (s.setA v).halted = s.halted := rfl
@[simp] theorem State.setA_fault (v : Byte) : (s.setA v).fault = s.fault := rfl
@[simp] theorem State.setA_mem (v : Byte) : (s.setA v).mem = s.mem := rfl
@[simp] theorem State.setA_gfx (v : Byte) : (s.setA v).gfx = s.gfx := rfl
@[simp] theorem State.setA_input (v : Byte) : (s.setA v).input = s.input := rfl
@[simp] theorem State.setA_cfg (v : Byte) : (s.setA v).cfg = s.cfg := rfl
@[simp] theorem State.setA_draws (v : Byte) : (s.setA v).draws = s.draws := rfl
@[simp] theorem State.setA_hostMoves (v : Byte) : (s.setA v).hostMoves = s.hostMoves := rfl
@[simp] theorem State.setA_framesReady (v : Byte) : (s.setA v).framesReady = s.framesReady := rfl

@[simp] theorem State.setX_a (v : Byte) : (s.setX v).cpu.a = s.cpu.a := rfl
@[simp] theorem State.setX_x (v : Byte) : (s.setX v).cpu.x = v := rfl
@[simp] theorem State.setX_y (v : Byte) : (s.setX v).cpu.y = s.cpu.y := rfl
@[simp] theorem State.setX_s (v : Byte) : (s.setX v).cpu.s = s.cpu.s := rfl
@[simp] theorem State.setX_pc (v : Byte) : (s.setX v).cpu.pc = s.cpu.pc := rfl
@[simp] theorem State.setX_p (v : Byte) : (s.setX v).cpu.p = s.cpu.p := rfl
@[simp] theorem State.setX_cycles (v : Byte) : (s.setX v).cycles = s.cycles := rfl
@[simp] theorem State.setX_lastCycles (v : Byte) : (s.setX v).lastCycles = s.lastCycles := rfl
@[simp] theorem State.setX_halted (v : Byte) : (s.setX v).halted = s.halted := rfl
@[simp] theorem State.setX_fault (v : Byte) : (s.setX v).fault = s.fault := rfl
@[simp] theorem State.setX_mem (v : Byte) : (s.setX v).mem = s.mem := rfl
@[simp] theorem State.setX_gfx (v : Byte) : (s.setX v).gfx = s.gfx := rfl
@[simp] theorem State.setX_input (v : Byte) : (s.setX v).input = s.input := rfl
@[simp] theorem State.setX_cfg (v : Byte) : (s.setX v).cfg = s.cfg := rfl
@[simp] theorem State.setX_draws (v : Byte) : (s.setX v).draws = s.draws := rfl
@[simp] theorem State.setX_hostMoves (v : Byte) : (s.setX v).hostMoves = s.hostMoves := rfl
@[simp] theorem State.setX_framesReady (v : Byte) : (s.setX v).framesReady = s.framesReady := rfl

@[simp] theorem State.setY_a (v : Byte) : (s.setY v).cpu.a = s.cpu.a := rfl
@[simp] theorem State.setY_x (v : Byte) : (s.setY v).cpu.x = s.cpu.x := rfl
@[simp] theorem State.setY_y (v : Byte) : (s.setY v).cpu.y = v := rfl
@[simp] theorem State.setY_s (v : Byte) : (s.setY v).cpu.s = s.cpu.s := rfl
@[simp] theorem State.setY_pc (v : Byte) : (s.setY v).cpu.pc = s.cpu.pc := rfl
@[simp] theorem State.setY_p (v : Byte) : (s.setY v).cpu.p = s.cpu.p := rfl
@[simp] theorem State.setY_cycles (v : Byte) : (s.setY v).cycles = s.cycles := rfl
@[simp] theorem State.setY_lastCycles (v : Byte) : (s.setY v).lastCycles = s.lastCycles := rfl
@[simp] theorem State.setY_halted (v : Byte) : (s.setY v).halted = s.halted := rfl
@[simp] theorem State.setY_fault (v : Byte) : (s.setY v).fault = s.fault := rfl
@[simp] theorem State.setY_mem (v : Byte) : (s.setY v).mem = s.mem := rfl
@[simp] theorem State.setY_gfx (v : Byte) : (s.setY v).gfx = s.gfx := rfl
@[simp] theorem State.setY_input (v : Byte) : (s.setY v).input = s.input := rfl
@[simp] theorem State.setY_cfg (v : Byte) : (s.setY v).cfg = s.cfg := rfl
@[simp] theorem State.setY_draws (v : Byte) : (s.setY v).draws = s.draws := rfl
@[simp] theorem State.setY_hostMoves (v : Byte) : (s.setY v).hostMoves = s.hostMoves := rfl
@[simp] theorem State.setY_framesReady (v : Byte) : (s.setY v).framesReady = s.framesReady := rfl

@[simp] theorem State.setS_a (v : Byte) : (s.setS v).cpu.a = s.cpu.a := rfl
@[simp] theorem State.setS_x (v : Byte) : (s.setS v).cpu.x = s.cpu.x := rfl
@[simp] theorem State.setS_y (v : Byte) : (s.setS v).cpu.y = s.cpu.y := rfl
@[simp] theorem State.setS_s (v : Byte) : (s.setS v).cpu.s = v := rfl
@[simp] theorem State.setS_pc (v : Byte) : (s.setS v).cpu.pc = s.cpu.pc := rfl
@[simp] theorem State.setS_p (v : Byte) : (s.setS v).cpu.p = s.cpu.p := rfl
@[simp] theorem State.setS_cycles (v : Byte) : (s.setS v).cycles = s.cycles := rfl
@[simp] theorem State.setS_lastCycles (v : Byte) : (s.setS v).lastCycles = s.lastCycles := rfl
@[simp] theorem State.setS_halted (v : Byte) : (s.setS v).halted = s.halted := rfl
@[simp] theorem State.setS_fault (v : Byte) : (s.setS v).fault = s.fault := rfl
@[simp] theorem State.setS_mem (v : Byte) : (s.setS v).mem = s.mem := rfl
@[simp] theorem State.setS_gfx (v : Byte) : (s.setS v).gfx = s.gfx := rfl
@[simp] theorem State.setS_input (v : Byte) : (s.setS v).input = s.input := rfl
@[simp] theorem State.setS_cfg (v : Byte) : (s.setS v).cfg = s.cfg := rfl
@[simp] theorem State.setS_draws (v : Byte) : (s.setS v).draws = s.draws := rfl
@[simp] theorem State.setS_hostMoves (v : Byte) : (s.setS v).hostMoves = s.hostMoves := rfl
@[simp] theorem State.setS_framesReady (v : Byte) : (s.setS v).framesReady = s.framesReady := rfl

@[simp] theorem State.setPc_a (w : Word) : (s.setPc w).cpu.a = s.cpu.a := rfl
@[simp] theorem State.setPc_x (w : Word) : (s.setPc w).cpu.x = s.cpu.x := rfl
@[simp] theorem State.setPc_y (w : Word) : (s.setPc w).cpu.y = s.cpu.y := rfl
@[simp] theorem State.setPc_s (w : Word) : (s.setPc w).cpu.s = s.cpu.s := rfl
@[simp] theorem State.setPc_pc (w : Word) : (s.setPc w).cpu.pc = w := rfl
@[simp] theorem State.setPc_p (w : Word) : (s.setPc w).cpu.p = s.cpu.p := rfl
@[simp] theorem State.setPc_cycles (w : Word) : (s.setPc w).cycles = s.cycles := rfl
@[simp] theorem State.setPc_lastCycles (w : Word) : (s.setPc w).lastCycles = s.lastCycles := rfl
@[simp] theorem State.setPc_halted (w : Word) : (s.setPc w).halted = s.halted := rfl
@[simp] theorem State.setPc_fault (w : Word) : (s.setPc w).fault = s.fault := rfl
@[simp] theorem State.setPc_mem (w : Word) : (s.setPc w).mem = s.mem := rfl
@[simp] theorem State.setPc_gfx (w : Word) : (s.setPc w).gfx = s.gfx := rfl
@[simp] theorem State.setPc_input (w : Word) : (s.setPc w).input = s.input := rfl
@[simp] theorem State.setPc_cfg (w : Word) : (s.setPc w).cfg = s.cfg := rfl
@[simp] theorem State.setPc_draws (w : Word) : (s.setPc w).draws = s.draws := rfl
@[simp] theorem State.setPc_hostMoves (w : Word) : (s.setPc w).hostMoves = s.hostMoves := rfl
@[simp] theorem State.setPc_framesReady (w : Word) : (s.setPc w).framesReady = s.framesReady := rfl

@[simp] theorem State.setP_a (p : Flags) : (s.setP p).cpu.a = s.cpu.a := rfl
@[simp] theorem State.setP_x (p : Flags) : (s.setP p).cpu.x = s.cpu.x := rfl
@[simp] theorem State.setP_y (p : Flags) : (s.setP p).cpu.y = s.cpu.y := rfl
@[simp] theorem State.setP_s (p : Flags) : (s.setP p).cpu.s = s.cpu.s := rfl
@[simp] theorem State.setP_pc (p : Flags) : (s.setP p).cpu.pc = s.cpu.pc := rfl
@[simp] theorem State.setP_p (p : Flags) : (s.setP p).cpu.p = p := rfl
@[simp] theorem State.setP_cycles (p : Flags) : (s.setP p).cycles = s.cycles := rfl
@[simp] theorem State.setP_lastCycles (p : Flags) : (s.setP p).lastCycles = s.lastCycles := rfl
@[simp] theorem State.setP_halted (p : Flags) : (s.setP p).halted = s.halted := rfl
@[simp] theorem State.setP_fault (p : Flags) : (s.setP p).fault = s.fault := rfl
@[simp] theorem State.setP_mem (p : Flags) : (s.setP p).mem = s.mem := rfl
@[simp] theorem State.setP_gfx (p : Flags) : (s.setP p).gfx = s.gfx := rfl
@[simp] theorem State.setP_input (p : Flags) : (s.setP p).input = s.input := rfl
@[simp] theorem State.setP_cfg (p : Flags) : (s.setP p).cfg = s.cfg := rfl
@[simp] theorem State.setP_draws (p : Flags) : (s.setP p).draws = s.draws := rfl
@[simp] theorem State.setP_hostMoves (p : Flags) : (s.setP p).hostMoves = s.hostMoves := rfl
@[simp] theorem State.setP_framesReady (p : Flags) : (s.setP p).framesReady = s.framesReady := rfl

@[simp] theorem State.setCycles_cpu (n : Nat) : (s.setCycles n).cpu = s.cpu := rfl
@[simp] theorem State.setCycles_cycles (n : Nat) : (s.setCycles n).cycles = n := rfl
@[simp] theorem State.setCycles_lastCycles (n : Nat) : (s.setCycles n).lastCycles = s.lastCycles := rfl
@[simp] theorem State.setCycles_halted (n : Nat) : (s.setCycles n).halted = s.halted := rfl
@[simp] theorem State.setCycles_fault (n : Nat) : (s.setCycles n).fault = s.fault := rfl
@[simp] theorem State.setCycles_mem (n : Nat) : (s.setCycles n).mem = s.mem := rfl
@[simp] theorem State.setCycles_gfx (n : Nat) : (s.setCycles n).gfx = s.gfx := rfl
@[simp] theorem State.setCycles_input (n : Nat) : (s.setCycles n).input = s.input := rfl
@[simp] theorem State.setCycles_cfg (n : Nat) : (s.setCycles n).cfg = s.cfg := rfl
@[simp] theorem State.setCycles_draws (n : Nat) : (s.setCycles n).draws = s.draws := rfl
@[simp] theorem State.setCycles_hostMoves (n : Nat) : (s.setCycles n).hostMoves = s.hostMoves := rfl
@[simp] theorem State.setCycles_framesReady (n : Nat) : (s.setCycles n).framesReady = s.framesReady := rfl

@[simp] theorem State.setLastCycles_cpu (n : Nat) : (s.setLastCycles n).cpu = s.cpu := rfl
@[simp] theorem State.setLastCycles_cycles (n : Nat) : (s.setLastCycles n).cycles = s.cycles := rfl
@[simp] theorem State.setLastCycles_lastCycles (n : Nat) : (s.setLastCycles n).lastCycles = n := rfl
@[simp] theorem State.setLastCycles_halted (n : Nat) : (s.setLastCycles n).halted = s.halted := rfl
@[simp] theorem State.setLastCycles_fault (n : Nat) : (s.setLastCycles n).fault = s.fault := rfl
@[simp] theorem State.setLastCycles_mem (n : Nat) : (s.setLastCycles n).mem = s.mem := rfl
@[simp] theorem State.setLastCycles_gfx (n : Nat) : (s.setLastCycles n).gfx = s.gfx := rfl
@[simp] theorem State.setLastCycles_input (n : Nat) : (s.setLastCycles n).input = s.input := rfl
@[simp] theorem State.setLastCycles_cfg (n : Nat) : (s.setLastCycles n).cfg = s.cfg := rfl
@[simp] theorem State.setLastCycles_draws (n : Nat) : (s.setLastCycles n).draws = s.draws := rfl
@[simp] theorem State.setLastCycles_hostMoves (n : Nat) : (s.setLastCycles n).hostMoves = s.hostMoves := rfl
@[simp] theorem State.setLastCycles_framesReady (n : Nat) : (s.setLastCycles n).framesReady = s.framesReady := rfl

@[simp] theorem State.setHalted_cpu (b : Bool) : (s.setHalted b).cpu = s.cpu := rfl
@[simp] theorem State.setHalted_cycles (b : Bool) : (s.setHalted b).cycles = s.cycles := rfl
@[simp] theorem State.setHalted_lastCycles (b : Bool) : (s.setHalted b).lastCycles = s.lastCycles := rfl
@[simp] theorem State.setHalted_halted (b : Bool) : (s.setHalted b).halted = b := rfl
@[simp] theorem State.setHalted_fault (b : Bool) : (s.setHalted b).fault = s.fault := rfl
@[simp] theorem State.setHalted_mem (b : Bool) : (s.setHalted b).mem = s.mem := rfl
@[simp] theorem State.setHalted_gfx (b : Bool) : (s.setHalted b).gfx = s.gfx := rfl
@[simp] theorem State.setHalted_input (b : Bool) : (s.setHalted b).input = s.input := rfl
@[simp] theorem State.setHalted_cfg (b : Bool) : (s.setHalted b).cfg = s.cfg := rfl
@[simp] theorem State.setHalted_draws (b : Bool) : (s.setHalted b).draws = s.draws := rfl
@[simp] theorem State.setHalted_hostMoves (b : Bool) : (s.setHalted b).hostMoves = s.hostMoves := rfl
@[simp] theorem State.setHalted_framesReady (b : Bool) : (s.setHalted b).framesReady = s.framesReady := rfl

@[simp] theorem State.setFault_cpu (f : Option Fault) : (s.setFault f).cpu = s.cpu := rfl
@[simp] theorem State.setFault_cycles (f : Option Fault) : (s.setFault f).cycles = s.cycles := rfl
@[simp] theorem State.setFault_lastCycles (f : Option Fault) : (s.setFault f).lastCycles = s.lastCycles := rfl
@[simp] theorem State.setFault_halted (f : Option Fault) : (s.setFault f).halted = s.halted := rfl
@[simp] theorem State.setFault_fault (f : Option Fault) : (s.setFault f).fault = f := rfl
@[simp] theorem State.setFault_mem (f : Option Fault) : (s.setFault f).mem = s.mem := rfl
@[simp] theorem State.setFault_gfx (f : Option Fault) : (s.setFault f).gfx = s.gfx := rfl
@[simp] theorem State.setFault_input (f : Option Fault) : (s.setFault f).input = s.input := rfl
@[simp] theorem State.setFault_cfg (f : Option Fault) : (s.setFault f).cfg = s.cfg := rfl
@[simp] theorem State.setFault_draws (f : Option Fault) : (s.setFault f).draws = s.draws := rfl
@[simp] theorem State.setFault_hostMoves (f : Option Fault) : (s.setFault f).hostMoves = s.hostMoves := rfl
@[simp] theorem State.setFault_framesReady (f : Option Fault) : (s.setFault f).framesReady = s.framesReady := rfl

@[simp] theorem State.setMem_cpu (m : Memory) : (s.setMem m).cpu = s.cpu := rfl
@[simp] theorem State.setMem_cycles (m : Memory) : (s.setMem m).cycles = s.cycles := rfl
@[simp] theorem State.setMem_lastCycles (m : Memory) : (s.setMem m).lastCycles = s.lastCycles := rfl
@[simp] theorem State.setMem_halted (m : Memory) : (s.setMem m).halted = s.halted := rfl
@[simp] theorem State.setMem_fault (m : Memory) : (s.setMem m).fault = s.fault := rfl
@[simp] theorem State.setMem_mem (m : Memory) : (s.setMem m).mem = m := rfl
@[simp] theorem State.setMem_gfx (m : Memory) : (s.setMem m).gfx = s.gfx := rfl
@[simp] theorem State.setMem_input (m : Memory) : (s.setMem m).input = s.input := rfl
@[simp] theorem State.setMem_cfg (m : Memory) : (s.setMem m).cfg = s.cfg := rfl
@[simp] theorem State.setMem_draws (m : Memory) : (s.setMem m).draws = s.draws := rfl
@[simp] theorem State.setMem_hostMoves (m : Memory) : (s.setMem m).hostMoves = s.hostMoves := rfl
@[simp] theorem State.setMem_framesReady (m : Memory) : (s.setMem m).framesReady = s.framesReady := rfl

@[simp] theorem State.setGfx_cpu (g : Gfx) : (s.setGfx g).cpu = s.cpu := rfl
@[simp] theorem State.setGfx_cycles (g : Gfx) : (s.setGfx g).cycles = s.cycles := rfl
@[simp] theorem State.setGfx_lastCycles (g : Gfx) : (s.setGfx g).lastCycles = s.lastCycles := rfl
@[simp] theorem State.setGfx_halted (g : Gfx) : (s.setGfx g).halted = s.halted := rfl
@[simp] theorem State.setGfx_fault (g : Gfx) : (s.setGfx g).fault = s.fault := rfl
@[simp] theorem State.setGfx_mem (g : Gfx) : (s.setGfx g).mem = s.mem := rfl
@[simp] theorem State.setGfx_gfx (g : Gfx) : (s.setGfx g).gfx = g := rfl
@[simp] theorem State.setGfx_input (g : Gfx) : (s.setGfx g).input = s.input := rfl
@[simp] theorem State.setGfx_cfg (g : Gfx) : (s.setGfx g).cfg = s.cfg := rfl
@[simp] theorem State.setGfx_draws (g : Gfx) : (s.setGfx g).draws = s.draws := rfl
@[simp] theorem State.setGfx_hostMoves (g : Gfx) : (s.setGfx g).hostMoves = s.hostMoves := rfl
@[simp] theorem State.setGfx_framesReady (g : Gfx) : (s.setGfx g).framesReady = s.framesReady := rfl

@[simp] theorem State.setInput_cpu (l : InputLatch) : (s.setInput l).cpu = s.cpu := rfl
@[simp] theorem State.setInput_cycles (l : InputLatch) : (s.setInput l).cycles = s.cycles := rfl
@[simp] theorem State.setInput_lastCycles (l : InputLatch) : (s.setInput l).lastCycles = s.lastCycles := rfl
@[simp] theorem State.setInput_halted (l : InputLatch) : (s.setInput l).halted = s.halted := rfl
@[simp] theorem State.setInput_fault (l : InputLatch) : (s.setInput l).fault = s.fault := rfl
@[simp] theorem State.setInput_mem (l : InputLatch) : (s.setInput l).mem = s.mem := rfl
@[simp] theorem State.setInput_gfx (l : InputLatch) : (s.setInput l).gfx = s.gfx := rfl
@[simp] theorem State.setInput_input (l : InputLatch) : (s.setInput l).input = l := rfl
@[simp] theorem State.setInput_cfg (l : InputLatch) : (s.setInput l).cfg = s.cfg := rfl
@[simp] theorem State.setInput_draws (l : InputLatch) : (s.setInput l).draws = s.draws := rfl
@[simp] theorem State.setInput_hostMoves (l : InputLatch) : (s.setInput l).hostMoves = s.hostMoves := rfl
@[simp] theorem State.setInput_framesReady (l : InputLatch) : (s.setInput l).framesReady = s.framesReady := rfl

@[simp] theorem State.countDraw_cpu : (s.countDraw).cpu = s.cpu := rfl
@[simp] theorem State.countDraw_cycles : (s.countDraw).cycles = s.cycles := rfl
@[simp] theorem State.countDraw_lastCycles : (s.countDraw).lastCycles = s.lastCycles := rfl
@[simp] theorem State.countDraw_halted : (s.countDraw).halted = s.halted := rfl
@[simp] theorem State.countDraw_fault : (s.countDraw).fault = s.fault := rfl
@[simp] theorem State.countDraw_mem : (s.countDraw).mem = s.mem := rfl
@[simp] theorem State.countDraw_gfx : (s.countDraw).gfx = s.gfx := rfl
@[simp] theorem State.countDraw_input : (s.countDraw).input = s.input := rfl
@[simp] theorem State.countDraw_cfg : (s.countDraw).cfg = s.cfg := rfl
@[simp] theorem State.countDraw_draws : (s.countDraw).draws = s.draws + 1 := rfl
@[simp] theorem State.countDraw_hostMoves : (s.countDraw).hostMoves = s.hostMoves := rfl
@[simp] theorem State.countDraw_framesReady : (s.countDraw).framesReady = s.framesReady := rfl

@[simp] theorem State.setHostMoves_cpu (l : List HostMove) : (s.setHostMoves l).cpu = s.cpu := rfl
@[simp] theorem State.setHostMoves_cycles (l : List HostMove) : (s.setHostMoves l).cycles = s.cycles := rfl
@[simp] theorem State.setHostMoves_lastCycles (l : List HostMove) : (s.setHostMoves l).lastCycles = s.lastCycles := rfl
@[simp] theorem State.setHostMoves_halted (l : List HostMove) : (s.setHostMoves l).halted = s.halted := rfl
@[simp] theorem State.setHostMoves_fault (l : List HostMove) : (s.setHostMoves l).fault = s.fault := rfl
@[simp] theorem State.setHostMoves_mem (l : List HostMove) : (s.setHostMoves l).mem = s.mem := rfl
@[simp] theorem State.setHostMoves_gfx (l : List HostMove) : (s.setHostMoves l).gfx = s.gfx := rfl
@[simp] theorem State.setHostMoves_input (l : List HostMove) : (s.setHostMoves l).input = s.input := rfl
@[simp] theorem State.setHostMoves_cfg (l : List HostMove) : (s.setHostMoves l).cfg = s.cfg := rfl
@[simp] theorem State.setHostMoves_draws (l : List HostMove) : (s.setHostMoves l).draws = s.draws := rfl
@[simp] theorem State.setHostMoves_hostMoves (l : List HostMove) : (s.setHostMoves l).hostMoves = l := rfl
@[simp] theorem State.setHostMoves_framesReady (l : List HostMove) : (s.setHostMoves l).framesReady = s.framesReady := rfl

@[simp] theorem State.countFrame_cpu : (s.countFrame).cpu = s.cpu := rfl
@[simp] theorem State.countFrame_cycles : (s.countFrame).cycles = s.cycles := rfl
@[simp] theorem State.countFrame_lastCycles : (s.countFrame).lastCycles = s.lastCycles := rfl
@[simp] theorem State.countFrame_halted : (s.countFrame).halted = s.halted := rfl
@[simp] theorem State.countFrame_fault : (s.countFrame).fault = s.fault := rfl
@[simp] theorem State.countFrame_mem : (s.countFrame).mem = s.mem := rfl
@[simp] theorem State.countFrame_gfx : (s.countFrame).gfx = s.gfx := rfl
@[simp] theorem State.countFrame_input : (s.countFrame).input = s.input := rfl
@[simp] theorem State.countFrame_cfg : (s.countFrame).cfg = s.cfg := rfl
@[simp] theorem State.countFrame_draws : (s.countFrame).draws = s.draws := rfl
@[simp] theorem State.countFrame_hostMoves : (s.countFrame).hostMoves = s.hostMoves := rfl
@[simp] theorem State.countFrame_framesReady : (s.countFrame).framesReady = s.framesReady + 1 := rfl

end Sys2Proof.Machine
end

