-- ==== Sys2Proof/Laws/Bus.lean ====
section
/-! SUPPORT. What a bus access can change, said once: a read changes only the pieces `State.exceptReads` blanks, a write only
those `State.exceptWrites` blanks. Everything built from reads (pointer reads, addressing, operands) inherits the first law. -/

namespace Sys2Proof.Machine

/-- `s` with the pieces that a bus read may change blanked: the address latch, the VRAM pointer, the read buffer, the input latch's
byte and the draw count. Two states equal under it agree on everything else. -/
def State.exceptReads (s : State) : State :=
  { s with
    gfx := { s.gfx with w := false, ptr := 0, buffer := 0 }
    input := { s.input with latch := 0 }
    draws := 0 }

/-- `s` with the pieces that a bus write may change blanked: the backing store, graphics memory, the register file, the input latch
and the draw count. Two states equal under it agree on everything else. -/
def State.exceptWrites (s : State) : State :=
  { s with
    mem := []
    gfx := { s.gfx with vram := [], oam := [], ctrl := 0, mask := 0, oamAddr := 0, oamDataLast := 0, scrollLast := 0, w := false,
                        ptr := 0, buffer := 0 }
    input := { capture := false, latch := 0 }
    draws := 0 }

/-! ### Reads -/

theorem gregRead_exceptReads (r : BitVec 3) (s : State) : (gregRead r s).2.exceptReads = s.exceptReads := by
  unfold gregRead
  split
  · rfl
  · unfold Gfx.dataRead
    dsimp only
    split <;> rfl
  · rfl

theorem inputRead_exceptReads (s : State) : (inputRead s).2.exceptReads = s.exceptReads := by
  unfold inputRead
  dsimp only
  split <;> rfl

/-- What a bus read can change. -/
theorem busRead_exceptReads (a : Word) (s : State) : (busRead a s).2.exceptReads = s.exceptReads := by
  unfold busRead
  split
  · rfl
  · split
    · exact gregRead_exceptReads _ s
    · split
      · exact inputRead_exceptReads s
      · rfl

/-- A bus read neither reads nor writes PC. -/
theorem busRead_setPc (a w : Word) (s : State) : busRead a (s.setPc w) = ((busRead a s).1, (busRead a s).2.setPc w) := by
  unfold busRead
  show (if s.cfg.busMode = .flat then _ else _) = _
  split
  · rfl
  · split
    · unfold gregRead
      split <;> rfl
    · split
      · unfold inputRead
        dsimp only
        show ((_ : Byte), if s.input.capture then _ else _) = _
        split <;> rfl
      · rfl

theorem busRead16_exceptReads (a : Word) (s : State) : (busRead16 a s).2.exceptReads = s.exceptReads := by
  unfold busRead16
  dsimp only
  rw [busRead_exceptReads, busRead_exceptReads]

theorem busRead16zp_exceptReads (p : Byte) (s : State) : (busRead16zp p s).2.exceptReads = s.exceptReads := by
  unfold busRead16zp
  dsimp only
  rw [busRead_exceptReads, busRead_exceptReads]

theorem busRead16page_exceptReads (p : Word) (s : State) : (busRead16page p s).2.exceptReads = s.exceptReads := by
  unfold busRead16page
  dsimp only
  rw [busRead_exceptReads, busRead_exceptReads]

theorem effAddr_exceptReads (m : MemMode) (s : State) : (effAddr m s).2.exceptReads = s.exceptReads := by
  cases m <;> try rfl
  · exact busRead16zp_exceptReads _ s
  · exact busRead16zp_exceptReads _ s

theorem readMem_exceptReads (m : MemMode) (s : State) : (readMem m s).2.exceptReads = s.exceptReads := by
  unfold readMem
  dsimp only
  rw [busRead_exceptReads, effAddr_exceptReads]

theorem readSrc_exceptReads (o : Src) (s : State) : (readSrc o s).2.exceptReads = s.exceptReads := by
  cases o
  · rfl
  · exact readMem_exceptReads _ s

/-! The pieces that instruction rules read after a bus read. -/

section
variable {s t : State} (h : t.exceptReads = s.exceptReads)
include h

theorem State.cpu_of_exceptReads : t.cpu = s.cpu := congrArg (fun q => q.cpu) h
theorem State.mem_of_exceptReads : t.mem = s.mem := congrArg (fun q => q.mem) h
theorem State.cfg_of_exceptReads : t.cfg = s.cfg := congrArg (fun q => q.cfg) h
theorem State.byteAt_of_exceptReads (a : Word) : t.byteAt a = s.byteAt a := by
  unfold State.byteAt
  rw [State.mem_of_exceptReads h, State.cfg_of_exceptReads h]
/-- A change that a read may make is one that a write may make. -/
theorem State.exceptWrites_of_exceptReads : t.exceptWrites = s.exceptWrites := by
  show t.exceptReads.exceptWrites = s.exceptReads.exceptWrites
  rw [h]
end

@[simp] theorem busRead_cpu (a : Word) (s : State) : (busRead a s).2.cpu = s.cpu :=
  State.cpu_of_exceptReads (busRead_exceptReads a s)
@[simp] theorem busRead_mem (a : Word) (s : State) : (busRead a s).2.mem = s.mem :=
  State.mem_of_exceptReads (busRead_exceptReads a s)
@[simp] theorem busRead_cfg (a : Word) (s : State) : (busRead a s).2.cfg = s.cfg :=
  State.cfg_of_exceptReads (busRead_exceptReads a s)
@[simp] theorem busRead16_cpu (a : Word) (s : State) : (busRead16 a s).2.cpu = s.cpu :=
  State.cpu_of_exceptReads (busRead16_exceptReads a s)
@[simp] theorem busRead16_mem (a : Word) (s : State) : (busRead16 a s).2.mem = s.mem :=
  State.mem_of_exceptReads (busRead16_exceptReads a s)
@[simp] theorem busRead16_cfg (a : Word) (s : State) : (busRead16 a s).2.cfg = s.cfg :=
  State.cfg_of_exceptReads (busRead16_exceptReads a s)
@[simp] theorem busRead16zp_cpu (p : Byte) (s : State) : (busRead16zp p s).2.cpu = s.cpu :=
  State.cpu_of_exceptReads (busRead16zp_exceptReads p s)
@[simp] theorem busRead16page_cpu (p : Word) (s : State) : (busRead16page p s).2.cpu = s.cpu :=
  State.cpu_of_exceptReads (busRead16page_exceptReads p s)
@[simp] theorem busRead16page_mem (p : Word) (s : State) : (busRead16page p s).2.mem = s.mem :=
  State.mem_of_exceptReads (busRead16page_exceptReads p s)
@[simp] theorem busRead16page_cfg (p : Word) (s : State) : (busRead16page p s).2.cfg = s.cfg :=
  State.cfg_of_exceptReads (busRead16page_exceptReads p s)
@[simp] theorem effAddr_cpu (m : MemMode) (s : State) : (effAddr m s).2.cpu = s.cpu :=
  State.cpu_of_exceptReads (effAddr_exceptReads m s)
@[simp] theorem effAddr_mem (m : MemMode) (s : State) : (effAddr m s).2.mem = s.mem :=
  State.mem_of_exceptReads (effAddr_exceptReads m s)
@[simp] theorem effAddr_cfg (m : MemMode) (s : State) : (effAddr m s).2.cfg = s.cfg :=
  State.cfg_of_exceptReads (effAddr_exceptReads m s)
@[simp] theorem readMem_cpu (m : MemMode) (s : State) : (readMem m s).2.cpu = s.cpu :=
  State.cpu_of_exceptReads (readMem_exceptReads m s)
@[simp] theorem readMem_mem (m : MemMode) (s : State) : (readMem m s).2.mem = s.mem :=
  State.mem_of_exceptReads (readMem_exceptReads m s)
@[simp] theorem readMem_cfg (m : MemMode) (s : State) : (readMem m s).2.cfg = s.cfg :=
  State.cfg_of_exceptReads (readMem_exceptReads m s)
@[simp] theorem readSrc_cpu (o : Src) (s : State) : (readSrc o s).2.cpu = s.cpu :=
  State.cpu_of_exceptReads (readSrc_exceptReads o s)
@[simp] theorem readSrc_mem (o : Src) (s : State) : (readSrc o s).2.mem = s.mem :=
  State.mem_of_exceptReads (readSrc_exceptReads o s)
@[simp] theorem readSrc_cfg (o : Src) (s : State) : (readSrc o s).2.cfg = s.cfg :=
  State.cfg_of_exceptReads (readSrc_exceptReads o s)

/-- A plain read: the byte of the backing store, and nothing changes (20_memory R66, R67). -/
theorem busRead_plain (a : Word) (s : State) (h : plainRead s.cfg a = true) : busRead a s = (s.byteAt a, s) := by
  unfold busRead
  split
  · rfl
  · next hm =>
    have : (!inGfxWindow a && a != 0x4016#16) = true := by
      unfold plainRead at h
      rcases hb : s.cfg.busMode with _ | _ <;> simp_all
    simp only [Bool.and_eq_true, Bool.not_eq_true', bne_iff_ne, ne_eq] at this
    rw [if_neg (by simp [this.1]), if_neg this.2]

/-! ### Writes -/

/-- What a bus write can change. -/
theorem busWrite_exceptWrites (a : Word) (v : Byte) (s : State) : (busWrite a v s).exceptWrites = s.exceptWrites := by
  unfold busWrite
  split
  · rfl
  · split
    · unfold Gfx.regWrite
      split <;> try rfl
      unfold Gfx.addrWrite
      split <;> rfl
    · split
      · rfl
      · split
        · unfold inputWrite
          split <;> rfl
        · split <;> rfl

section
variable {s t : State} (h : t.exceptWrites = s.exceptWrites)
include h

theorem State.cpu_of_exceptWrites : t.cpu = s.cpu := congrArg (fun q => q.cpu) h
theorem State.cfg_of_exceptWrites : t.cfg = s.cfg := congrArg (fun q => q.cfg) h
end

@[simp] theorem busWrite_cpu (a : Word) (v : Byte) (s : State) : (busWrite a v s).cpu = s.cpu :=
  State.cpu_of_exceptWrites (busWrite_exceptWrites a v s)
@[simp] theorem busWrite_cfg (a : Word) (v : Byte) (s : State) : (busWrite a v s).cfg = s.cfg :=
  State.cfg_of_exceptWrites (busWrite_exceptWrites a v s)

/-- A plain write: a store into the backing store (R61). -/
theorem busWrite_plain (a : Word) (v : Byte) (s : State) (h : plainWrite s.cfg a = true) : busWrite a v s = s.storeByte a v := by
  unfold busWrite
  unfold plainWrite at h
  rcases hb : s.cfg.busMode with _ | _
  · have hm : (BusMode.nes == BusMode.flat) = false := rfl
    rw [hb, hm, Bool.false_or] at h
    simp only [Bool.and_eq_true, Bool.not_eq_true', bne_iff_ne, ne_eq, Bool.and_eq_false_iff, decide_eq_false_iff_not,
      beq_eq_false_iff_ne] at h
    obtain ⟨⟨⟨h1, h2⟩, h3⟩, h4⟩ := h
    rw [if_neg (by simp), if_neg (by simp [h1]), if_neg h2, if_neg h3, if_neg (by
      rintro ⟨h5, h6⟩
      rcases h4 with h4 | h4
      · exact h4 h5
      · exact h4 h6)]
  · rw [if_pos rfl]

/-- The backing store after a bus write: the one index of a plain write has the value, and no other index changes. -/
theorem busWrite_mem (a : Word) (v : Byte) (s : State) :
    (busWrite a v s).mem = if plainWrite s.cfg a then s.mem.write (busIndex s.cfg a) v else s.mem := by
  by_cases h : plainWrite s.cfg a = true
  · rw [if_pos h, busWrite_plain a v s h]
    rfl
  · rw [if_neg h]
    unfold plainWrite at h
    simp only [Bool.or_eq_true, not_or] at h
    obtain ⟨h1, h2⟩ := h
    have hm : ¬ s.cfg.busMode = BusMode.flat := by
      intro hc
      exact h1 (by rw [hc]; rfl)
    unfold busWrite
    rw [if_neg hm]
    split
    · rfl
    · split
      · rfl
      · split
        · unfold inputWrite
          split <;> rfl
        · next hw h14 h16 =>
          rw [if_pos]
          by_contra hn
          apply h2
          simp only [Bool.and_eq_true, Bool.not_eq_true', bne_iff_ne, ne_eq, Bool.and_eq_false_iff, decide_eq_false_iff_not,
            beq_eq_false_iff_ne]
          refine ⟨⟨⟨by simpa using hw, h14⟩, h16⟩, ?_⟩
          by_cases h8 : 0x8000#16 ≤ a
          · exact .inr fun h => hn ⟨h8, h⟩
          · exact .inl h8

/-- Reading any byte of the backing store after a bus write. -/
theorem busWrite_byteAt (a : Word) (v : Byte) (s : State) (b : Word) :
    (busWrite a v s).byteAt b =
      if plainWrite s.cfg a = true ∧ busIndex s.cfg a = busIndex s.cfg b then v else s.byteAt b := by
  unfold State.byteAt
  rw [busWrite_mem, busWrite_cfg]
  by_cases h : plainWrite s.cfg a = true
  · rw [if_pos h, Memory.read_write]
    by_cases h2 : busIndex s.cfg a = busIndex s.cfg b <;> simp [h, h2]
  · simp [h]

end Sys2Proof.Machine
end

