-- ==== Sys2Proof/Laws/Cycles.lean ====
section
/-! SUPPORT. The base cycle table, row by row, is the cost written out by mnemonic and mode (spec 30_encoding R106, 70_reset R420). -/

namespace Sys2Proof.Machine

/-- The table's entry for a row's opcode is the row's base cost. -/
theorem cycleTable_opcodeOf (i : Instr) : cycleTable (opcodeOf i) = baseCost i.op := by
  cases i <;> (simp only [opcodeOf, encode, encodeF3, List.headD_cons]; rfl)

end Sys2Proof.Machine
end

