-- ==== Sys2Proof/Laws/Stack.lean ====
section
/-! SUPPORT. Addresses as numbers: normalization, the stack page and the vectors are plain storage in both bus modes, so a push is a
store, a pull is a load and an interrupt entry is three stores and a load (spec 20_memory R62, 46_stack R250, R251, 60_exceptions R310). -/

namespace Sys2Proof.Machine

theorem and_mask_toNat (a m : Word) (k : Nat) (h : m.toNat = 2 ^ k - 1) : (a &&& m).toNat = a.toNat % 2 ^ k := by
  rw [BitVec.toNat_and, h, Nat.and_two_pow_sub_one_eq_mod]

/-- Low RAM is mirrored every 0x800 bytes (R62, R63). -/
theorem norm_ram (cfg : Config) (a : Word) (h : a.toNat < 0x2000) : (norm cfg a).toNat = a.toNat % 0x800 := by
  have hle : a ≤ 0x1FFF#16 := by
    rw [BitVec.le_def]
    simp
    omega
  unfold norm
  rw [if_pos hle]
  exact and_mask_toNat a _ 11 rfl

/-- The register window folds onto its eight-byte block (R62); only a sprite DMA reads there (R90). -/
theorem norm_registers (cfg : Config) (a : Word) (h : 0x2000 ≤ a.toNat) (h' : a.toNat < 0x4000) :
    (norm cfg a).toNat = 0x2000 + a.toNat % 8 := by
  have h1 : ¬ a ≤ 0x1FFF#16 := by
    rw [BitVec.le_def]
    simp
    omega
  have h2 : a ≤ 0x3FFF#16 := by
    rw [BitVec.le_def]
    simp
    omega
  have h3 : (a &&& 0x0007#16).toNat = a.toNat % 8 := and_mask_toNat a _ 3 rfl
  unfold norm
  rw [if_neg h1, if_pos h2, BitVec.toNat_add, h3, show (0x2000#16).toNat = 0x2000 from rfl]
  omega

/-- The cartridge window folds onto its first half for a 16 KB image (R62, R65). -/
theorem norm_cartridge_one (cfg : Config) (a : Word) (h : 0x8000 ≤ a.toNat) (hp : cfg.prgUnits = .one) :
    (norm cfg a).toNat = 0x8000 + a.toNat % 0x4000 := by
  have h1 : ¬ a ≤ 0x1FFF#16 := by
    rw [BitVec.le_def]
    simp
    omega
  have h2 : ¬ a ≤ 0x3FFF#16 := by
    rw [BitVec.le_def]
    simp
    omega
  have h3 : 0x8000#16 ≤ a := by
    rw [BitVec.le_def]
    simpa using h
  unfold norm
  rw [if_neg h1, if_neg h2, if_pos ⟨h3, hp⟩, BitVec.toNat_add, and_mask_toNat a _ 14 rfl]
  simp
  omega

/-- Above the register window every address is its own index but for the folded cartridge window (R62). -/
theorem norm_high (cfg : Config) (a : Word) (h : 0x4000 ≤ a.toNat) (hp : a.toNat < 0x8000 ∨ cfg.prgUnits = .two) :
    norm cfg a = a := by
  have h1 : ¬ a ≤ 0x1FFF#16 := by
    rw [BitVec.le_def]
    simp
    omega
  have h2 : ¬ a ≤ 0x3FFF#16 := by
    rw [BitVec.le_def]
    simp
    omega
  unfold norm
  rw [if_neg h1, if_neg h2, if_neg]
  rintro ⟨h3, h4⟩
  rw [BitVec.le_def] at h3
  simp at h3
  rcases hp with hp | hp
  · omega
  · rw [h4] at hp
    cases hp

theorem stackAddr_toNat (sp : Byte) : (stackAddr sp).toNat = 0x100 + sp.toNat := by
  unfold stackAddr zext16
  rw [BitVec.toNat_add, BitVec.toNat_setWidth]
  have := sp.isLt
  simp
  omega

theorem inGfxWindow_false_of_lt (a : Word) (h : a.toNat < 0x2000) : inGfxWindow a = false := by
  unfold inGfxWindow
  rw [decide_eq_false_iff_not, BitVec.le_def]
  simp
  omega

theorem inGfxWindow_false_of_ge (a : Word) (h : 0x4000 ≤ a.toNat) : inGfxWindow a = false := by
  unfold inGfxWindow
  rw [decide_eq_false_iff_not, BitVec.le_def, BitVec.le_def]
  simp
  omega

/-- Every address below the register window is plain to read and to write. -/
theorem plainRead_low (cfg : Config) (a : Word) (h : a.toNat < 0x2000) : plainRead cfg a = true := by
  have : a ≠ 0x4016#16 := by
    rintro rfl
    simp at h
  simp [plainRead, inGfxWindow_false_of_lt a h, this]

theorem plainWrite_low (cfg : Config) (a : Word) (h : a.toNat < 0x2000) : plainWrite cfg a = true := by
  have h1 : a ≠ 0x4016#16 := by
    rintro rfl
    simp at h
  have h2 : a ≠ 0x4014#16 := by
    rintro rfl
    simp at h
  have h3 : ¬ 0x8000#16 ≤ a := by
    rw [BitVec.le_def]
    simp
    omega
  simp [plainWrite, inGfxWindow_false_of_lt a h, h1, h2, h3]

/-- Every address from 0x4017 up is plain to read. -/
theorem plainRead_high (cfg : Config) (a : Word) (h : 0x4017 ≤ a.toNat) : plainRead cfg a = true := by
  have : a ≠ 0x4016#16 := by
    rintro rfl
    simp at h
  simp [plainRead, inGfxWindow_false_of_ge a (by omega), this]

theorem stackAddr_lt (sp : Byte) : (stackAddr sp).toNat < 0x2000 := by
  rw [stackAddr_toNat]
  have := sp.isLt
  omega

@[simp] theorem plainRead_stack (cfg : Config) (sp : Byte) : plainRead cfg (stackAddr sp) = true :=
  plainRead_low cfg _ (stackAddr_lt sp)

@[simp] theorem plainWrite_stack (cfg : Config) (sp : Byte) : plainWrite cfg (stackAddr sp) = true :=
  plainWrite_low cfg _ (stackAddr_lt sp)

/-- The index of a stack byte is the same in both bus modes. -/
@[simp] theorem busIndex_stack (cfg : Config) (sp : Byte) : busIndex cfg (stackAddr sp) = 0x100 + sp.toNat := by
  unfold busIndex
  have := sp.isLt
  split
  · exact stackAddr_toNat sp
  · rw [norm_ram cfg _ (stackAddr_lt sp), stackAddr_toNat]
    omega

theorem busIndex_stack_ne (cfg : Config) {p q : Byte} (h : p ≠ q) :
    busIndex cfg (stackAddr p) ≠ busIndex cfg (stackAddr q) := by
  simp only [busIndex_stack]
  intro hc
  exact h (BitVec.eq_of_toNat_eq (by omega))

/-- The index of an address in the cartridge window lies there too. -/
theorem busIndex_high (cfg : Config) (a : Word) (h : 0x8000 ≤ a.toNat) : 0x8000 ≤ busIndex cfg a := by
  unfold busIndex
  split
  · exact h
  · rcases hp : cfg.prgUnits with _ | _
    · rw [norm_cartridge_one cfg a h hp]
      omega
    · rw [norm_high cfg a (by omega) (.inr hp)]
      exact h

/-- A push is a store at the stack pointer's address (R250). -/
theorem push_eq (v : Byte) (s : State) : push v s = (s.storeByte (stackAddr s.cpu.s) v).setS (s.cpu.s - 1) := by
  unfold push
  rw [busWrite_plain _ _ _ (plainWrite_stack _ _)]
  rfl

/-- A pull is a load at the stack pointer's next address (R251). -/
theorem pull_eq (s : State) : pull s = (s.byteAt (stackAddr (s.cpu.s + 1)), s.setS (s.cpu.s + 1)) := by
  unfold pull
  dsimp only
  rw [busRead_plain _ _ (plainRead_stack _ _)]
  rfl

theorem storeByte_byteAt (s : State) (a : Word) (v : Byte) (b : Word) :
    (s.storeByte a v).byteAt b = if busIndex s.cfg a = busIndex s.cfg b then v else s.byteAt b := by
  unfold State.byteAt State.storeByte
  simp [Memory.read_write]

@[simp] theorem storeByte_cpu (s : State) (a : Word) (v : Byte) : (s.storeByte a v).cpu = s.cpu := rfl
@[simp] theorem storeByte_cfg (s : State) (a : Word) (v : Byte) : (s.storeByte a v).cfg = s.cfg := rfl
@[simp] theorem setS_byteAt (s : State) (v : Byte) (a : Word) : (s.setS v).byteAt a = s.byteAt a := rfl
@[simp] theorem setP_byteAt (s : State) (p : Flags) (a : Word) : (s.setP p).byteAt a = s.byteAt a := rfl
@[simp] theorem setPc_byteAt (s : State) (w : Word) (a : Word) : (s.setPc w).byteAt a = s.byteAt a := rfl
@[simp] theorem setA_byteAt (s : State) (v : Byte) (a : Word) : (s.setA v).byteAt a = s.byteAt a := rfl
@[simp] theorem setX_byteAt (s : State) (v : Byte) (a : Word) : (s.setX v).byteAt a = s.byteAt a := rfl
@[simp] theorem setY_byteAt (s : State) (v : Byte) (a : Word) : (s.setY v).byteAt a = s.byteAt a := rfl

/-- A push of a 16-bit value is two stores, high byte first. -/
theorem push16_eq (w : Word) (s : State) :
    push16 w s =
      ((s.storeByte (stackAddr s.cpu.s) (hiByte w)).storeByte (stackAddr (s.cpu.s - 1)) (loByte w)).setS (s.cpu.s - 2) := by
  unfold push16
  rw [push_eq, push_eq]
  have h : s.cpu.s - 1 - 1 = s.cpu.s - 2 := by
    rw [BitVec.sub_sub]
    rfl
  simp only [State.setS_s, h]
  rfl

/-- A pull of a 16-bit value is two loads, low byte first. -/
theorem pull16_eq (s : State) :
    pull16 s =
      (mkWord (s.byteAt (stackAddr (s.cpu.s + 2))) (s.byteAt (stackAddr (s.cpu.s + 1))), s.setS (s.cpu.s + 2)) := by
  unfold pull16
  dsimp only
  rw [pull_eq, pull_eq]
  have h : s.cpu.s + 1 + 1 = s.cpu.s + 2 := by
    rw [BitVec.add_assoc]
    rfl
  simp only [State.setS_s, h]
  rfl

/-- Reading a vector: two loads from the cartridge window. -/
theorem busRead16_high (a : Word) (s : State) (h : 0x8000 ≤ a.toNat) (h1 : 0x8000 ≤ (a + 1).toNat) :
    busRead16 a s = (mkWord (s.byteAt (a + 1)) (s.byteAt a), s) := by
  unfold busRead16
  dsimp only
  rw [busRead_plain a s (plainRead_high _ _ (by omega)), busRead_plain (a + 1) s (plainRead_high _ _ (by omega))]

/-- A stored stack byte leaves every byte of the cartridge window alone. -/
theorem storeByte_stack_high (s : State) (sp v : Byte) (a : Word) (h : 0x8000 ≤ a.toNat) :
    (s.storeByte (stackAddr sp) v).byteAt a = s.byteAt a := by
  rw [storeByte_byteAt, if_neg]
  have h1 := busIndex_high s.cfg a h
  have h2 := sp.isLt
  rw [busIndex_stack]
  omega

/-- The state of an interrupt entry before the vector is read: PC and status on the stack, I set. -/
def entered (brk : Bool) (s : State) : State :=
  ((((s.storeByte (stackAddr s.cpu.s) (hiByte s.cpu.pc)).storeByte (stackAddr (s.cpu.s - 1)) (loByte s.cpu.pc)).storeByte
    (stackAddr (s.cpu.s - 2)) (pushedStatus s.cpu.p brk)).setS (s.cpu.s - 3)).setP { s.cpu.p with i := true }

/-- An interrupt entry through a vector of the cartridge window (R310). -/
theorem interruptEntry_eq (vec : Word) (brk : Bool) (s : State) (h : 0x8000 ≤ vec.toNat) (h1 : 0x8000 ≤ (vec + 1).toNat) :
    interruptEntry vec brk s = (entered brk s).setPc (mkWord (s.byteAt (vec + 1)) (s.byteAt vec)) := by
  unfold interruptEntry
  dsimp only
  rw [busRead16_high vec _ h h1, push16_eq, push_eq]
  have hs : s.cpu.s - 2 - 1 = s.cpu.s - 3 := by
    rw [BitVec.sub_sub]
    rfl
  have hb : ∀ a : Word, 0x8000 ≤ a.toNat → (entered brk s).byteAt a = s.byteAt a := by
    intro a ha
    unfold entered
    rw [setP_byteAt, setS_byteAt, storeByte_stack_high _ _ _ _ ha, storeByte_stack_high _ _ _ _ ha,
      storeByte_stack_high _ _ _ _ ha]
  simp only [State.setS_s, hs]
  show State.setPc (entered brk s) (mkWord ((entered brk s).byteAt (vec + 1)) ((entered brk s).byteAt vec)) = _
  rw [hb _ h1, hb _ h]

end Sys2Proof.Machine
end

