-- ==== Sys2Proof/Laws/Exec.lean ====
section
/-! SUPPORT. What an instruction does, by its mnemonic: `runOp` is the next state of each, and `exec_eq` says that `exec` answers it for
every row of the opcode map. Statements about all rows of a mnemonic, or about all instructions, go through it. -/

namespace Sys2Proof.Machine

/-- The state after an instruction, by mnemonic and operand. -/
def runOp (o : Op) (s : State) : State :=
  match o with
  | .adc o => adc o s
  | .sbc o => sbc o s
  | .and o => andA o s
  | .ora o => oraA o s
  | .eor o => eorA o s
  | .cmp o => cmp o s
  | .cpx o => cpx o s
  | .cpy o => cpy o s
  | .lda o => lda o s
  | .ldx o => ldx o s
  | .ldy o => ldy o s
  | .bit m => bitA m s
  | .sta m => storeTo m s.cpu.a s
  | .stx m => storeTo m s.cpu.x s
  | .sty m => storeTo m s.cpu.y s
  | .inc m => rmwMem m incFn s
  | .dec m => rmwMem m decFn s
  | .asl t => rmw t aslFn s
  | .lsr t => rmw t lsrFn s
  | .rol t => rmw t rolFn s
  | .ror t => rmw t rorFn s
  | .bpl d => branch 0 false d s
  | .bmi d => branch 0 true d s
  | .bvc d => branch 1 false d s
  | .bvs d => branch 1 true d s
  | .bcc d => branch 2 false d s
  | .bcs d => branch 2 true d s
  | .bne d => branch 3 false d s
  | .beq d => branch 3 true d s
  | .jmp w => s.setPc w
  | .jmpIndirect w => (busRead16page w s).2.setPc (busRead16page w s).1
  | .jsr w => (push16 (s.cpu.pc - 1) s).setPc w
  | .rts => (pull16 s).2.setPc ((pull16 s).1 + 1)
  | .rti => interruptReturn s
  | .brk => interruptEntry irqVector true (s.setPc (s.cpu.pc + 1))
  | .pha => push s.cpu.a s
  | .php => push s.cpu.p.pushedByBreak s
  | .pla => setANZ (pull s).1 (pull s).2
  | .plp => pullStatus s
  | .clc => s.setP { s.cpu.p with c := false }
  | .cld => s.setP { s.cpu.p with d := false }
  | .cli => s.setP { s.cpu.p with i := false }
  | .clv => s.setP { s.cpu.p with v := false }
  | .sec => s.setP { s.cpu.p with c := true }
  | .sed => s.setP { s.cpu.p with d := true }
  | .sei => s.setP { s.cpu.p with i := true }
  | .tax => setXNZ s.cpu.a s
  | .tay => setYNZ s.cpu.a s
  | .txa => setANZ s.cpu.x s
  | .tya => setANZ s.cpu.y s
  | .tsx => setXNZ s.cpu.s s
  | .txs => s.setS s.cpu.x
  | .inx => setXNZ (s.cpu.x + 1) s
  | .iny => setYNZ (s.cpu.y + 1) s
  | .dex => setXNZ (s.cpu.x - 1) s
  | .dey => setYNZ (s.cpu.y - 1) s
  | .nop => s

/-- Every row of the opcode map answers the next state of its mnemonic. -/
theorem exec_eq (i : Instr) (s : State) : exec i s = .next (runOp i.op s) := by cases i <;> rfl

end Sys2Proof.Machine
end

