-- ==== Sys2Proof/Laws/Fetch.lean ====
section
/-! SUPPORT. Fetching: a fetch is one bus read at PC, from plain storage it is a load and PC moves on, and what the opcode map reads
from a byte has that byte as its opcode and the map's length (spec 00_scope R14, 30_encoding R100, R107). -/

namespace Sys2Proof.Machine

/-- A fetch from plain storage (R14). -/
theorem fetch8_plain (s : State) (h : plainRead s.cfg s.cpu.pc = true) :
    fetch8 s = (s.byteAt s.cpu.pc, s.setPc (s.cpu.pc + 1)) := by
  unfold fetch8
  dsimp only
  rw [busRead_plain _ _ h]

/-- A fetch (R14): the byte the bus gives at PC, in the state the read leaves, with PC moved on. -/
theorem fetch8_eq (s : State) : fetch8 s = ((busRead s.cpu.pc s).1, (busRead s.cpu.pc s).2.setPc (s.cpu.pc + 1)) := by
  unfold fetch8
  dsimp only
  have h : (busRead s.cpu.pc s).2.cpu.pc = s.cpu.pc := congrArg (·.cpu.pc) (busRead_exceptReads s.cpu.pc s)
  rw [h]

/-- The next fetch, one address on. -/
theorem fetch8_setPc (s : State) (w : Word) : fetch8 (s.setPc w) = ((busRead w s).1, (busRead w s).2.setPc (w + 1)) := by
  rw [fetch8_eq]
  simp only [State.setPc_pc, busRead_setPc]
  rfl

/-- What one byte of the opcode map stands for: an instruction with that opcode and the format's length. -/
def formAgrees (op : Byte) : Except FaultKind OpForm → Prop
  | .error _ => True
  | .ok (.f1 i) => opcodeOf i = op ∧ i.length = 1
  | .ok (.f2 mk) => ∀ a, opcodeOf (mk a) = op ∧ (mk a).length = 2
  | .ok (.f3 mk) => ∀ w, opcodeOf (mk w) = op ∧ (mk w).length = 3

/-- Every byte of the opcode map agrees with its format. -/
theorem opcodeForm_agrees (op : Byte) : formAgrees op (opcodeForm op) := by
  have all : ∀ k, k < 256 → op = BitVec.ofNat 8 k → formAgrees op (opcodeForm op) := by
    intro k hk h
    subst h
    interval_cases k <;> first | trivial | exact fun _ => ⟨rfl, rfl⟩
  exact all op.toNat op.isLt (by simp)

end Sys2Proof.Machine
end

