-- ==== Sys2Proof/Laws/Flags.lean ====
section
/-! SUPPORT. The flag computations of Machine/Flags.lean as arithmetic: one lemma for each of the result flags, the add core, the compare
core, the shift functions and the status byte (spec 41_flags R150-R152, 42_arith R170, R173, 44_shift_rmw R201-R204). -/

namespace Sys2Proof.Machine

theorem byte_eq_zero (v : Byte) : v = 0 ↔ v.toNat = 0 :=
  ⟨fun h => by rw [h]; rfl, fun h => BitVec.eq_of_toNat_eq h⟩

/-! ### The status byte -/

/-- Packing and unpacking is the identity on the stored flags (R150, R151). -/
theorem loadByte_asByte (p : Flags) : Flags.loadByte p.asByte = p := by
  rcases p with ⟨n, v, b, d, i, z, c⟩
  revert n v b d i z c
  decide

/-- The copy that PHP and BRK push is the status byte with B set (R253, R310). -/
theorem pushedByBreak_eq (p : Flags) : p.pushedByBreak = { p with b := true }.asByte := by
  rcases p with ⟨n, v, b, d, i, z, c⟩
  revert n v b d i z c
  decide

/-! ### The result flags and the cores -/

/-- N and Z of a result (R152). -/
theorem setNZ_eq (p : Flags) (v : Byte) :
    p.setNZ v = { p with n := decide (128 ≤ v.toNat), z := decide (v.toNat = 0) } := by
  unfold Flags.setNZ
  rw [getLsbD7_eq]
  simp only [byte_eq_zero]

theorem setNZ_ofNat (p : Flags) (r : Nat) (h : r < 256) :
    p.setNZ (BitVec.ofNat 8 r) = { p with n := decide (128 ≤ r), z := decide (r = 0) } := by
  rw [setNZ_eq, BitVec.toNat_ofNat, Nat.mod_eq_of_lt h]

theorem addResult_toNat (a m : Byte) (c : Bool) : (addResult a m c).toNat = addTotal a m c % 256 := by
  unfold addResult
  simp

/-- Bit 7 of the unbounded total is bit 7 of the sum byte. -/
theorem addTotal_testBit (a m : Byte) (c : Bool) : (addTotal a m c).testBit 7 = (addResult a m c).getLsbD 7 := by
  unfold addResult
  rw [BitVec.getLsbD_ofNat]
  simp

/-- The flags of the add core (R170). -/
theorem addCore_eq (p : Flags) (a m : Byte) :
    p.addCore a m =
      { p with
        n := decide (128 ≤ addTotal a m p.c % 256)
        v := decide (a.msb = m.msb ∧ (addResult a m p.c).msb ≠ a.msb)
        z := decide (addTotal a m p.c % 256 = 0)
        c := decide (255 < addTotal a m p.c) } := by
  unfold Flags.addCore
  rw [setNZ_eq, addTotal_testBit, addResult_toNat]
  have h7 : ∀ v : Byte, v.getLsbD 7 = v.msb := fun v => by rw [BitVec.msb_eq_getLsbD_last]
  simp only [h7]
  congr 1
  cases a.msb <;> cases m.msb <;> cases (addResult a m p.c).msb <;> rfl

/-- V is signed overflow: the signed sum with the carry leaves -128..127 (R170, R177). -/
theorem overflow_iff (a m : Byte) (c : Bool) :
    (a.msb = m.msb ∧ (addResult a m c).msb ≠ a.msb) ↔
      a.toInt + m.toInt + (c.toNat : Int) < -128 ∨ 127 < a.toInt + m.toInt + (c.toNat : Int) := by
  rw [BitVec.toInt_eq_msb_cond, BitVec.toInt_eq_msb_cond]
  simp only [BitVec.msb_eq_decide, addResult_toNat, addTotal, decide_eq_true_eq, decide_eq_decide, ne_eq]
  have := a.isLt
  have := m.isLt
  have := c.toNat_le
  by_cases h1 : 2 ^ (8 - 1) ≤ a.toNat <;> by_cases h2 : 2 ^ (8 - 1) ≤ m.toNat <;> simp [h1, h2] <;> omega

/-- The flags of the compare core (R173). -/
theorem compare_eq (p : Flags) (r m : Byte) :
    p.compare r m =
      { p with
        n := decide (128 ≤ (r.toNat + 256 - m.toNat) % 256)
        z := decide (r = m)
        c := decide (m.toNat ≤ r.toNat) } := by
  unfold Flags.compare compareDiff
  rw [setNZ_eq]
  have := r.isLt
  have := m.isLt
  have hd : (BitVec.ofInt 8 ((r.toNat : Int) - m.toNat)).toNat = (r.toNat + 256 - m.toNat) % 256 := by
    rw [BitVec.toNat_ofInt]
    simp
    omega
  have he : r = m ↔ r.toNat = m.toNat := ⟨fun h => by rw [h], BitVec.eq_of_toNat_eq⟩
  rw [hd]
  congr 1
  · rw [decide_eq_decide, he]
    omega
  · rw [decide_eq_decide]
    omega

/-! ### The shift functions -/

theorem getLsbD0_eq (v : Byte) : v.getLsbD 0 = decide (v.toNat % 2 = 1) := by
  rw [BitVec.getLsbD, Nat.testBit_eq_decide_div_mod_eq, decide_eq_decide]
  omega

theorem shiftLeft_one_eq (v : Byte) : v <<< 1 = BitVec.ofNat 8 (2 * v.toNat % 256) := by
  apply BitVec.eq_of_toNat_eq
  rw [BitVec.toNat_shiftLeft, Nat.shiftLeft_eq]
  simp
  omega

theorem shiftRight_one_eq (v : Byte) : v >>> 1 = BitVec.ofNat 8 (v.toNat / 2) := by
  apply BitVec.eq_of_toNat_eq
  have := v.isLt
  rw [BitVec.toNat_ushiftRight, Nat.shiftRight_eq_div_pow]
  simp
  omega

/-- ROL's result (R203). -/
theorem rolFn_fst (v : Byte) (c : Bool) : (rolFn v c).1 = BitVec.ofNat 8 ((2 * v.toNat + c.toNat) % 256) := by
  unfold rolFn
  apply BitVec.eq_of_toNat_eq
  rw [BitVec.toNat_or, bitByte_toNat, BitVec.toNat_shiftLeft]
  have := c.toNat_lt
  have e : (v.toNat <<< 1) % 2 ^ 8 = (v.toNat % 128) <<< 1 := by
    rw [Nat.shiftLeft_eq, Nat.shiftLeft_eq]
    omega
  rw [e, ← Nat.shiftLeft_add_eq_or_of_lt (by simpa using this), Nat.shiftLeft_eq]
  simp
  omega

/-- ROR's result (R204). -/
theorem rorFn_fst (v : Byte) (c : Bool) : (rorFn v c).1 = BitVec.ofNat 8 (v.toNat / 2 + 128 * c.toNat) := by
  unfold rorFn
  apply BitVec.eq_of_toNat_eq
  rw [BitVec.toNat_or, BitVec.toNat_shiftLeft, bitByte_toNat, Nat.lor_comm]
  have := c.toNat_lt
  have := v.isLt
  have e : (c.toNat <<< 7) % 2 ^ 8 = c.toNat <<< 7 := by
    rw [Nat.shiftLeft_eq]
    omega
  rw [e, BitVec.toNat_ushiftRight, ← Nat.shiftLeft_add_eq_or_of_lt (by rw [Nat.shiftRight_eq_div_pow]; omega), Nat.shiftLeft_eq,
    Nat.shiftRight_eq_div_pow]
  simp
  omega

end Sys2Proof.Machine
end

