-- ==== Sys2Proof/Laws/Graphics.lean ====
section
/-! SUPPORT. The graphics unit: what the composer's two operations leave alone and what they write (spec 60_exceptions R322, R323), and what
graphics memory reads as after a palette write (20_memory R81). The lemmas about `snapshot` and `compose` spare a proof from
unfolding them. -/

namespace Sys2Proof.Machine

variable (mode : NtMirror) (g : Gfx)

@[simp] theorem Gfx.snapshot_vram : (g.snapshot mode).vram = g.vram := rfl
@[simp] theorem Gfx.snapshot_oam : (g.snapshot mode).oam = g.oam := rfl
@[simp] theorem Gfx.snapshot_ctrl : (g.snapshot mode).ctrl = g.ctrl := rfl
@[simp] theorem Gfx.snapshot_mask : (g.snapshot mode).mask = g.mask := rfl
@[simp] theorem Gfx.snapshot_oamAddr : (g.snapshot mode).oamAddr = g.oamAddr := rfl
@[simp] theorem Gfx.snapshot_oamDataLast : (g.snapshot mode).oamDataLast = g.oamDataLast := rfl
@[simp] theorem Gfx.snapshot_scrollLast : (g.snapshot mode).scrollLast = g.scrollLast := rfl
@[simp] theorem Gfx.snapshot_vblank : (g.snapshot mode).vblank = g.vblank := rfl
@[simp] theorem Gfx.snapshot_w : (g.snapshot mode).w = g.w := rfl
@[simp] theorem Gfx.snapshot_ptr : (g.snapshot mode).ptr = g.ptr := rfl
@[simp] theorem Gfx.snapshot_buffer : (g.snapshot mode).buffer = g.buffer := rfl
@[simp] theorem Gfx.snapshot_scanline : (g.snapshot mode).scanline = g.scanline := rfl
@[simp] theorem Gfx.snapshot_dot : (g.snapshot mode).dot = g.dot := rfl
@[simp] theorem Gfx.snapshot_frame : (g.snapshot mode).frame = g.frame := rfl

@[simp] theorem Gfx.compose_vram : (g.compose mode).vram = g.vram := rfl
@[simp] theorem Gfx.compose_oam : (g.compose mode).oam = g.oam := rfl
@[simp] theorem Gfx.compose_ctrl : (g.compose mode).ctrl = g.ctrl := rfl
@[simp] theorem Gfx.compose_mask : (g.compose mode).mask = g.mask := rfl
@[simp] theorem Gfx.compose_oamAddr : (g.compose mode).oamAddr = g.oamAddr := rfl
@[simp] theorem Gfx.compose_oamDataLast : (g.compose mode).oamDataLast = g.oamDataLast := rfl
@[simp] theorem Gfx.compose_scrollLast : (g.compose mode).scrollLast = g.scrollLast := rfl
@[simp] theorem Gfx.compose_vblank : (g.compose mode).vblank = g.vblank := rfl
@[simp] theorem Gfx.compose_w : (g.compose mode).w = g.w := rfl
@[simp] theorem Gfx.compose_ptr : (g.compose mode).ptr = g.ptr := rfl
@[simp] theorem Gfx.compose_buffer : (g.compose mode).buffer = g.buffer := rfl
@[simp] theorem Gfx.compose_scanline : (g.compose mode).scanline = g.scanline := rfl
@[simp] theorem Gfx.compose_dot : (g.compose mode).dot = g.dot := rfl
@[simp] theorem Gfx.compose_snapNT : (g.compose mode).snapNT = g.snapNT := rfl
@[simp] theorem Gfx.compose_snapPal : (g.compose mode).snapPal = g.snapPal := rfl

/-- The nametable snapshot (R322). -/
theorem Gfx.snapshot_snapNT :
    (g.snapshot mode).snapNT = Memory.ofFn 1024 fun i => g.vread mode (g.ntBase + BitVec.ofNat 16 i) :=
  rfl

/-- The palette snapshot (R322). -/
theorem Gfx.snapshot_snapPal :
    (g.snapshot mode).snapPal = Memory.ofFn 16 fun i => g.vread mode (0x3F00#16 + BitVec.ofNat 16 i) :=
  rfl

/-- The composed frame (R323). -/
theorem Gfx.compose_frame :
    (g.compose mode).frame = Memory.ofFn 61440 fun i => g.pixel mode (i / 256) (i % 256) :=
  rfl

/-- The four aliased cells, as numbers (R81, R84). -/
theorem isPaletteZero_iff (a : Word) :
    isPaletteZero a = true ↔ a.toNat = 0x3F00 ∨ a.toNat = 0x3F04 ∨ a.toNat = 0x3F08 ∨ a.toNat = 0x3F0C := by
  have h : ∀ k : Word, (a == k) = true ↔ a.toNat = k.toNat := fun k => by
    rw [beq_iff_eq]
    exact ⟨fun h => by rw [h], BitVec.eq_of_toNat_eq⟩
  unfold isPaletteZero
  simp only [Bool.or_eq_true, h]
  simp [or_assoc]

/-- A write to an aliased cell is read through all four, and through no other (R81). -/
theorem writePaletteZero_read (m : Memory) (v : Byte) (c : Nat) :
    (writePaletteZero m v).read c = if c = 0x3F00 ∨ c = 0x3F04 ∨ c = 0x3F08 ∨ c = 0x3F0C then v else m.read c := by
  unfold writePaletteZero
  simp only [Memory.read_write]
  repeat' split
  all_goals first | rfl | omega

/-- A write of graphics memory changes nothing else of the unit (R81). -/
theorem Gfx.vwrite_frame (a : Word) (v : Byte) : g.vwrite mode a v = { g with vram := (g.vwrite mode a v).vram } := rfl

/-- Graphics memory after a write, by index (R81). -/
theorem Gfx.vwrite_read (a : Word) (v : Byte) (c : Nat) :
    (g.vwrite mode a v).vram.read c =
      if isPaletteZero (vnorm mode a) then (writePaletteZero g.vram v).read c
      else if (vnorm mode a).toNat = c then v else g.vram.read c := by
  unfold Gfx.vwrite
  split
  · rfl
  · exact Memory.read_write _ _ _ _

end Sys2Proof.Machine
end

