-- ==== Sys2Proof/Laws/Operands.lean ====
section
/-! SUPPORT. Addressing and the read-modify-write frame: computing an effective address changes nothing, since a zero-page pointer is
plain storage in both bus modes (spec 40_addressing R133-R138), and a read-modify-write changes the processor's registers only in its
flags and memory only at its address (44_shift_rmw R200). -/

namespace Sys2Proof.Machine

theorem zext16_low (p : Byte) : (zext16 p).toNat < 0x2000 := by
  rw [zext16_toNat]
  have := p.isLt
  omega

/-- A zero-page pointer is two loads (R137, R138). -/
theorem busRead16zp_eq (p : Byte) (s : State) :
    busRead16zp p s = (mkWord (s.byteAt (zext16 (p + 1))) (s.byteAt (zext16 p)), s) := by
  unfold busRead16zp
  dsimp only
  rw [busRead_plain _ s (plainRead_low _ _ (zext16_low _)), busRead_plain _ s (plainRead_low _ _ (zext16_low _))]

/-- Computing an effective address changes nothing. -/
theorem effAddr_snd (m : MemMode) (s : State) : (effAddr m s).2 = s := by
  cases m <;> first | rfl | simp only [effAddr, busRead16zp_eq]

/-- A memory operand at a plain address is the byte there, and nothing changes (R131). -/
theorem readMem_plain (m : MemMode) (s : State) (h : plainRead s.cfg (effAddr m s).1 = true) :
    readMem m s = (s.byteAt (effAddr m s).1, s) := by
  unfold readMem
  dsimp only
  rw [effAddr_snd]
  exact busRead_plain _ s h

/-- The registers after a read-modify-write: only flags change. -/
theorem rmwMem_cpu (m : MemMode) (f : Byte → Bool → Byte × Bool) (s : State) :
    (rmwMem m f s).cpu =
      { s.cpu with
        p := { s.cpu.p with c := (f (busRead (effAddr m s).1 s).1 s.cpu.p.c).2 }.setNZ
          (f (busRead (effAddr m s).1 s).1 s.cpu.p.c).1 } := by
  unfold rmwMem
  simp only [effAddr_snd, State.setP, busWrite_cpu, busRead_cpu]

/-- A write through an effective address leaves every byte at another index alone. -/
theorem busWrite_other (a b : Word) (v : Byte) (s : State) (h : busIndex s.cfg a ≠ busIndex s.cfg b) :
    (busWrite a v s).byteAt b = s.byteAt b := by
  rw [busWrite_byteAt, if_neg]
  rintro ⟨-, h2⟩
  exact h h2

/-- Memory after a read-modify-write: only the byte at its address can change. -/
theorem rmwMem_other (m : MemMode) (f : Byte → Bool → Byte × Bool) (s : State) (a : Word)
    (h : busIndex s.cfg (effAddr m s).1 ≠ busIndex s.cfg a) : (rmwMem m f s).byteAt a = s.byteAt a := by
  unfold rmwMem
  simp only [effAddr_snd, setP_byteAt]
  rw [busWrite_other]
  · exact State.byteAt_of_exceptReads (busRead_exceptReads _ _) a
  · rwa [busRead_cfg]

/-- A branch writes PC and nothing else (47_control R260). -/
theorem branch_eq (sel : BitVec 2) (exp : Bool) (d : Byte) (s : State) :
    branch sel exp d s = s.setPc (branch sel exp d s).cpu.pc := by
  unfold branch
  split <;> rfl

end Sys2Proof.Machine
end

