-- ==== Sys2Proof/Laws/Orchestrator.lean ====
section
/-! SUPPORT. Everything an orchestrator step can do: nothing while halted, enter the faulted state, or run one instruction and advance the
graphics unit (spec 60_exceptions R341, R342, R345). It is never a fault or a refusal. -/

namespace Sys2Proof.Machine

/-- With no host move pending, the step runs in the state itself. -/
theorem begun_eq (s : State) (h : s.hostMoves = []) : s.begun = s := by
  show { s with hostMoves := s.hostMoves.tail } = s
  rw [h, List.tail_nil, ← h]

/-- A running machine's step is an orchestrator step from `begun`. -/
theorem step_running (s : State) (h : s.running) : step s = orchestratorStep s.begun := by
  obtain ⟨hf, -, hm⟩ := h
  unfold step
  rw [hf]
  cases hs : s.hostMoves with
  | nil => exact congrArg orchestratorStep (begun_eq s hs).symm
  | cons m rest =>
    rw [hs] at hm
    obtain rfl : m = .proceed := by simpa using hm
    exact congrArg orchestratorStep (congrArg s.setHostMoves (congrArg List.tail hs).symm)

/-- A halted step (R345). -/
theorem orchestratorStep_halted (s : State) (h : s.halted = true) : orchestratorStep s = .next s := by
  unfold orchestratorStep
  rw [if_pos h]

/-- Where no instruction is fetched, the opcode byte has no row and the fault is recorded (30_encoding R104, R302). -/
theorem fetchInstr_fatal (s t : State) (h : fetchInstr s = .fatal t) :
    ∃ k, opcodeForm (fetch8 s).1 = .error k ∧ t = raiseFatal k (fetch8 s).1 s.cpu.pc (fetch8 s).2 := by
  unfold fetchInstr at h
  dsimp only at h
  split at h
  · injection h with h
    exact ⟨_, ‹_›, h.symm⟩
  · cases h
  · cases h
  · cases h

/-- A step whose opcode byte is illegal answers the state with the fault record and does nothing more (R15, R300). -/
theorem orchestratorStep_fatal (s t : State) (hh : s.halted = false) (h : fetchInstr s = .fatal t) :
    orchestratorStep s = .next t := by
  obtain ⟨k, -, ht⟩ := fetchInstr_fatal s t h
  have hf : t.fault.isSome = true := by
    subst ht
    rfl
  unfold orchestratorStep runOneInstruction
  rw [hh, h]
  dsimp only
  rw [if_neg Bool.false_ne_true, if_neg Bool.false_ne_true]
  dsimp only
  rw [if_pos hf]

/-- A step that fetches an instruction runs it, adds its base cost and advances the graphics unit. -/
theorem orchestratorStep_instr (s t : State) (op : Byte) (i : Instr) (hh : s.halted = false) (h : fetchInstr s = .instr op i t)
    (hf : (runOp i.op t).fault = none) :
    orchestratorStep s = .next (catchUp s.cycles (addCycles (cycleTable op) (runOp i.op t))) := by
  have hf' : ¬ (addCycles (cycleTable op) (runOp i.op t)).fault.isSome = true := by
    show ¬ (runOp i.op t).fault.isSome = true
    rw [hf]
    exact Bool.false_ne_true
  unfold orchestratorStep runOneInstruction
  rw [hh, h]
  dsimp only
  rw [if_neg Bool.false_ne_true, if_neg Bool.false_ne_true, exec_eq]
  dsimp only
  rw [if_neg hf']

end Sys2Proof.Machine
end

