-- ==== Sys2Proof/Laws/PerInstr.lean ====
section
/-! SUPPORT. The per-instruction family `EncodedLength`: the opcode byte of an instruction alone gives its length (spec 30_encoding R100,
R107), and its pair of mnemonic and mode is one the opcode map defines. -/

/-- The opcode map gives the opcode byte the format of this length, and the instruction is well formed. -/
def Sys2Proof.Laws.EncodedLength.Statement (i : Sys2Proof.Instr) : Prop :=
  (match Sys2Proof.opcodeForm (Sys2Proof.opcodeOf i) with
    | .ok f => f.length = i.length
    | .error _ => False) ∧ i.wellFormed = true

namespace Sys2Proof.Laws.EncodedLength

theorem brk : Statement .brk := ⟨rfl, rfl⟩
theorem oraIndX (a : Byte) : Statement (.oraIndX a) := ⟨rfl, rfl⟩
theorem oraZp (a : Byte) : Statement (.oraZp a) := ⟨rfl, rfl⟩
theorem aslZp (a : Byte) : Statement (.aslZp a) := ⟨rfl, rfl⟩
theorem php : Statement .php := ⟨rfl, rfl⟩
theorem oraImm (v : Byte) : Statement (.oraImm v) := ⟨rfl, rfl⟩
theorem aslAcc : Statement .aslAcc := ⟨rfl, rfl⟩
theorem oraAbs (w : Word) : Statement (.oraAbs w) := ⟨rfl, rfl⟩
theorem aslAbs (w : Word) : Statement (.aslAbs w) := ⟨rfl, rfl⟩
theorem bpl (d : Byte) : Statement (.bpl d) := ⟨rfl, rfl⟩
theorem oraIndY (a : Byte) : Statement (.oraIndY a) := ⟨rfl, rfl⟩
theorem oraZpX (a : Byte) : Statement (.oraZpX a) := ⟨rfl, rfl⟩
theorem aslZpX (a : Byte) : Statement (.aslZpX a) := ⟨rfl, rfl⟩
theorem clc : Statement .clc := ⟨rfl, rfl⟩
theorem oraAbsY (w : Word) : Statement (.oraAbsY w) := ⟨rfl, rfl⟩
theorem oraAbsX (w : Word) : Statement (.oraAbsX w) := ⟨rfl, rfl⟩
theorem aslAbsX (w : Word) : Statement (.aslAbsX w) := ⟨rfl, rfl⟩
theorem jsr (w : Word) : Statement (.jsr w) := ⟨rfl, rfl⟩
theorem andIndX (a : Byte) : Statement (.andIndX a) := ⟨rfl, rfl⟩
theorem bitZp (a : Byte) : Statement (.bitZp a) := ⟨rfl, rfl⟩
theorem andZp (a : Byte) : Statement (.andZp a) := ⟨rfl, rfl⟩
theorem rolZp (a : Byte) : Statement (.rolZp a) := ⟨rfl, rfl⟩
theorem plp : Statement .plp := ⟨rfl, rfl⟩
theorem andImm (v : Byte) : Statement (.andImm v) := ⟨rfl, rfl⟩
theorem rolAcc : Statement .rolAcc := ⟨rfl, rfl⟩
theorem bitAbs (w : Word) : Statement (.bitAbs w) := ⟨rfl, rfl⟩
theorem andAbs (w : Word) : Statement (.andAbs w) := ⟨rfl, rfl⟩
theorem rolAbs (w : Word) : Statement (.rolAbs w) := ⟨rfl, rfl⟩
theorem bmi (d : Byte) : Statement (.bmi d) := ⟨rfl, rfl⟩
theorem andIndY (a : Byte) : Statement (.andIndY a) := ⟨rfl, rfl⟩
theorem andZpX (a : Byte) : Statement (.andZpX a) := ⟨rfl, rfl⟩
theorem rolZpX (a : Byte) : Statement (.rolZpX a) := ⟨rfl, rfl⟩
theorem sec : Statement .sec := ⟨rfl, rfl⟩
theorem andAbsY (w : Word) : Statement (.andAbsY w) := ⟨rfl, rfl⟩
theorem andAbsX (w : Word) : Statement (.andAbsX w) := ⟨rfl, rfl⟩
theorem rolAbsX (w : Word) : Statement (.rolAbsX w) := ⟨rfl, rfl⟩
theorem rti : Statement .rti := ⟨rfl, rfl⟩
theorem eorIndX (a : Byte) : Statement (.eorIndX a) := ⟨rfl, rfl⟩
theorem eorZp (a : Byte) : Statement (.eorZp a) := ⟨rfl, rfl⟩
theorem lsrZp (a : Byte) : Statement (.lsrZp a) := ⟨rfl, rfl⟩
theorem pha : Statement .pha := ⟨rfl, rfl⟩
theorem eorImm (v : Byte) : Statement (.eorImm v) := ⟨rfl, rfl⟩
theorem lsrAcc : Statement .lsrAcc := ⟨rfl, rfl⟩
theorem jmpAbs (w : Word) : Statement (.jmpAbs w) := ⟨rfl, rfl⟩
theorem eorAbs (w : Word) : Statement (.eorAbs w) := ⟨rfl, rfl⟩
theorem lsrAbs (w : Word) : Statement (.lsrAbs w) := ⟨rfl, rfl⟩
theorem bvc (d : Byte) : Statement (.bvc d) := ⟨rfl, rfl⟩
theorem eorIndY (a : Byte) : Statement (.eorIndY a) := ⟨rfl, rfl⟩
theorem eorZpX (a : Byte) : Statement (.eorZpX a) := ⟨rfl, rfl⟩
theorem lsrZpX (a : Byte) : Statement (.lsrZpX a) := ⟨rfl, rfl⟩
theorem cli : Statement .cli := ⟨rfl, rfl⟩
theorem eorAbsY (w : Word) : Statement (.eorAbsY w) := ⟨rfl, rfl⟩
theorem eorAbsX (w : Word) : Statement (.eorAbsX w) := ⟨rfl, rfl⟩
theorem lsrAbsX (w : Word) : Statement (.lsrAbsX w) := ⟨rfl, rfl⟩
theorem rts : Statement .rts := ⟨rfl, rfl⟩
theorem adcIndX (a : Byte) : Statement (.adcIndX a) := ⟨rfl, rfl⟩
theorem adcZp (a : Byte) : Statement (.adcZp a) := ⟨rfl, rfl⟩
theorem rorZp (a : Byte) : Statement (.rorZp a) := ⟨rfl, rfl⟩
theorem pla : Statement .pla := ⟨rfl, rfl⟩
theorem adcImm (v : Byte) : Statement (.adcImm v) := ⟨rfl, rfl⟩
theorem rorAcc : Statement .rorAcc := ⟨rfl, rfl⟩
theorem jmpInd (w : Word) : Statement (.jmpInd w) := ⟨rfl, rfl⟩
theorem adcAbs (w : Word) : Statement (.adcAbs w) := ⟨rfl, rfl⟩
theorem rorAbs (w : Word) : Statement (.rorAbs w) := ⟨rfl, rfl⟩
theorem bvs (d : Byte) : Statement (.bvs d) := ⟨rfl, rfl⟩
theorem adcIndY (a : Byte) : Statement (.adcIndY a) := ⟨rfl, rfl⟩
theorem adcZpX (a : Byte) : Statement (.adcZpX a) := ⟨rfl, rfl⟩
theorem rorZpX (a : Byte) : Statement (.rorZpX a) := ⟨rfl, rfl⟩
theorem sei : Statement .sei := ⟨rfl, rfl⟩
theorem adcAbsY (w : Word) : Statement (.adcAbsY w) := ⟨rfl, rfl⟩
theorem adcAbsX (w : Word) : Statement (.adcAbsX w) := ⟨rfl, rfl⟩
theorem rorAbsX (w : Word) : Statement (.rorAbsX w) := ⟨rfl, rfl⟩
theorem staIndX (a : Byte) : Statement (.staIndX a) := ⟨rfl, rfl⟩
theorem styZp (a : Byte) : Statement (.styZp a) := ⟨rfl, rfl⟩
theorem staZp (a : Byte) : Statement (.staZp a) := ⟨rfl, rfl⟩
theorem stxZp (a : Byte) : Statement (.stxZp a) := ⟨rfl, rfl⟩
theorem dey : Statement .dey := ⟨rfl, rfl⟩
theorem txa : Statement .txa := ⟨rfl, rfl⟩
theorem styAbs (w : Word) : Statement (.styAbs w) := ⟨rfl, rfl⟩
theorem staAbs (w : Word) : Statement (.staAbs w) := ⟨rfl, rfl⟩
theorem stxAbs (w : Word) : Statement (.stxAbs w) := ⟨rfl, rfl⟩
theorem bcc (d : Byte) : Statement (.bcc d) := ⟨rfl, rfl⟩
theorem staIndY (a : Byte) : Statement (.staIndY a) := ⟨rfl, rfl⟩
theorem styZpX (a : Byte) : Statement (.styZpX a) := ⟨rfl, rfl⟩
theorem staZpX (a : Byte) : Statement (.staZpX a) := ⟨rfl, rfl⟩
theorem stxZpY (a : Byte) : Statement (.stxZpY a) := ⟨rfl, rfl⟩
theorem tya : Statement .tya := ⟨rfl, rfl⟩
theorem staAbsY (w : Word) : Statement (.staAbsY w) := ⟨rfl, rfl⟩
theorem txs : Statement .txs := ⟨rfl, rfl⟩
theorem staAbsX (w : Word) : Statement (.staAbsX w) := ⟨rfl, rfl⟩
theorem ldyImm (v : Byte) : Statement (.ldyImm v) := ⟨rfl, rfl⟩
theorem ldaIndX (a : Byte) : Statement (.ldaIndX a) := ⟨rfl, rfl⟩
theorem ldxImm (v : Byte) : Statement (.ldxImm v) := ⟨rfl, rfl⟩
theorem ldyZp (a : Byte) : Statement (.ldyZp a) := ⟨rfl, rfl⟩
theorem ldaZp (a : Byte) : Statement (.ldaZp a) := ⟨rfl, rfl⟩
theorem ldxZp (a : Byte) : Statement (.ldxZp a) := ⟨rfl, rfl⟩
theorem tay : Statement .tay := ⟨rfl, rfl⟩
theorem ldaImm (v : Byte) : Statement (.ldaImm v) := ⟨rfl, rfl⟩
theorem tax : Statement .tax := ⟨rfl, rfl⟩
theorem ldyAbs (w : Word) : Statement (.ldyAbs w) := ⟨rfl, rfl⟩
theorem ldaAbs (w : Word) : Statement (.ldaAbs w) := ⟨rfl, rfl⟩
theorem ldxAbs (w : Word) : Statement (.ldxAbs w) := ⟨rfl, rfl⟩
theorem bcs (d : Byte) : Statement (.bcs d) := ⟨rfl, rfl⟩
theorem ldaIndY (a : Byte) : Statement (.ldaIndY a) := ⟨rfl, rfl⟩
theorem ldyZpX (a : Byte) : Statement (.ldyZpX a) := ⟨rfl, rfl⟩
theorem ldaZpX (a : Byte) : Statement (.ldaZpX a) := ⟨rfl, rfl⟩
theorem ldxZpY (a : Byte) : Statement (.ldxZpY a) := ⟨rfl, rfl⟩
theorem clv : Statement .clv := ⟨rfl, rfl⟩
theorem ldaAbsY (w : Word) : Statement (.ldaAbsY w) := ⟨rfl, rfl⟩
theorem tsx : Statement .tsx := ⟨rfl, rfl⟩
theorem ldyAbsX (w : Word) : Statement (.ldyAbsX w) := ⟨rfl, rfl⟩
theorem ldaAbsX (w : Word) : Statement (.ldaAbsX w) := ⟨rfl, rfl⟩
theorem ldxAbsY (w : Word) : Statement (.ldxAbsY w) := ⟨rfl, rfl⟩
theorem cpyImm (v : Byte) : Statement (.cpyImm v) := ⟨rfl, rfl⟩
theorem cmpIndX (a : Byte) : Statement (.cmpIndX a) := ⟨rfl, rfl⟩
theorem cpyZp (a : Byte) : Statement (.cpyZp a) := ⟨rfl, rfl⟩
theorem cmpZp (a : Byte) : Statement (.cmpZp a) := ⟨rfl, rfl⟩
theorem decZp (a : Byte) : Statement (.decZp a) := ⟨rfl, rfl⟩
theorem iny : Statement .iny := ⟨rfl, rfl⟩
theorem cmpImm (v : Byte) : Statement (.cmpImm v) := ⟨rfl, rfl⟩
theorem dex : Statement .dex := ⟨rfl, rfl⟩
theorem cpyAbs (w : Word) : Statement (.cpyAbs w) := ⟨rfl, rfl⟩
theorem cmpAbs (w : Word) : Statement (.cmpAbs w) := ⟨rfl, rfl⟩
theorem decAbs (w : Word) : Statement (.decAbs w) := ⟨rfl, rfl⟩
theorem bne (d : Byte) : Statement (.bne d) := ⟨rfl, rfl⟩
theorem cmpIndY (a : Byte) : Statement (.cmpIndY a) := ⟨rfl, rfl⟩
theorem cmpZpX (a : Byte) : Statement (.cmpZpX a) := ⟨rfl, rfl⟩
theorem decZpX (a : Byte) : Statement (.decZpX a) := ⟨rfl, rfl⟩
theorem cld : Statement .cld := ⟨rfl, rfl⟩
theorem cmpAbsY (w : Word) : Statement (.cmpAbsY w) := ⟨rfl, rfl⟩
theorem cmpAbsX (w : Word) : Statement (.cmpAbsX w) := ⟨rfl, rfl⟩
theorem decAbsX (w : Word) : Statement (.decAbsX w) := ⟨rfl, rfl⟩
theorem cpxImm (v : Byte) : Statement (.cpxImm v) := ⟨rfl, rfl⟩
theorem sbcIndX (a : Byte) : Statement (.sbcIndX a) := ⟨rfl, rfl⟩
theorem cpxZp (a : Byte) : Statement (.cpxZp a) := ⟨rfl, rfl⟩
theorem sbcZp (a : Byte) : Statement (.sbcZp a) := ⟨rfl, rfl⟩
theorem incZp (a : Byte) : Statement (.incZp a) := ⟨rfl, rfl⟩
theorem inx : Statement .inx := ⟨rfl, rfl⟩
theorem sbcImm (v : Byte) : Statement (.sbcImm v) := ⟨rfl, rfl⟩
theorem nop : Statement .nop := ⟨rfl, rfl⟩
theorem cpxAbs (w : Word) : Statement (.cpxAbs w) := ⟨rfl, rfl⟩
theorem sbcAbs (w : Word) : Statement (.sbcAbs w) := ⟨rfl, rfl⟩
theorem incAbs (w : Word) : Statement (.incAbs w) := ⟨rfl, rfl⟩
theorem beq (d : Byte) : Statement (.beq d) := ⟨rfl, rfl⟩
theorem sbcIndY (a : Byte) : Statement (.sbcIndY a) := ⟨rfl, rfl⟩
theorem sbcZpX (a : Byte) : Statement (.sbcZpX a) := ⟨rfl, rfl⟩
theorem incZpX (a : Byte) : Statement (.incZpX a) := ⟨rfl, rfl⟩
theorem sed : Statement .sed := ⟨rfl, rfl⟩
theorem sbcAbsY (w : Word) : Statement (.sbcAbsY w) := ⟨rfl, rfl⟩
theorem sbcAbsX (w : Word) : Statement (.sbcAbsX w) := ⟨rfl, rfl⟩
theorem incAbsX (w : Word) : Statement (.incAbsX w) := ⟨rfl, rfl⟩

end Sys2Proof.Laws.EncodedLength
end

