-- ==== Sys2Proof/Laws/Timing.lean ====
section
/-! SUPPORT. The timing FSM: what an interrupt entry, a scanline's events and the turns of the loop of `advance` leave alone, and the
counters after k turns, and `advance` one scanline at a time (spec 60_exceptions R311, R320, R321). -/

namespace Sys2Proof.Machine

/-- An interrupt entry made by NMI, with its cycles (R311). -/
theorem nmiEntry_eq (s : State) (h : s.fault = none) :
    nmiEntry s = addCycles intCycles ((entered false s).setPc (mkWord (s.byteAt (nmiVector + 1)) (s.byteAt nmiVector))) := by
  unfold nmiEntry
  rw [h, interruptEntry_eq nmiVector false s (by decide) (by decide)]
  rfl

/-- What an NMI leaves alone. -/
theorem nmiEntry_frame (s : State) :
    (nmiEntry s).gfx = s.gfx ∧ (nmiEntry s).fault = s.fault ∧ (nmiEntry s).cfg = s.cfg ∧
      (nmiEntry s).lastCycles = s.lastCycles := by
  unfold nmiEntry
  split
  · exact ⟨rfl, rfl, rfl, rfl⟩
  · rw [interruptEntry_eq nmiVector false s (by decide) (by decide)]
    exact ⟨rfl, rfl, rfl, rfl⟩

/-- The events of a scanline leave the counters, the fault record, the configuration and `lastCycles` alone (R321). -/
theorem onScanline_frame (line : Nat) (s : State) :
    (onScanline line s).gfx.dot = s.gfx.dot ∧ (onScanline line s).gfx.scanline = s.gfx.scanline ∧
      (onScanline line s).fault = s.fault ∧ (onScanline line s).cfg = s.cfg ∧
      (onScanline line s).lastCycles = s.lastCycles := by
  unfold onScanline
  split
  · exact ⟨rfl, rfl, rfl, rfl, rfl⟩
  · exact ⟨rfl, rfl, rfl, rfl, rfl⟩
  · dsimp only
    split
    · obtain ⟨h1, h2, h3, h4⟩ := nmiEntry_frame (s.setGfx { s.gfx with vblank := true }).countFrame
      rw [h1, h2, h3, h4]
      exact ⟨rfl, rfl, rfl, rfl, rfl⟩
    · exact ⟨rfl, rfl, rfl, rfl, rfl⟩
  · exact ⟨rfl, rfl, rfl, rfl, rfl⟩
  · exact ⟨rfl, rfl, rfl, rfl, rfl⟩

/-- One turn of the loop of `advance` (R320). -/
theorem nextScanline_frame (s : State) :
    (nextScanline s).gfx.dot = s.gfx.dot - 341 ∧ (nextScanline s).gfx.scanline = (s.gfx.scanline + 1) % 262 ∧
      (nextScanline s).fault = s.fault ∧ (nextScanline s).cfg = s.cfg ∧ (nextScanline s).lastCycles = s.lastCycles :=
  onScanline_frame ((s.gfx.scanline + 1) % 262)
    (s.setGfx { s.gfx with dot := s.gfx.dot - 341, scanline := (s.gfx.scanline + 1) % 262 })

/-- `k` turns of the loop of `advance`. -/
theorem scanlines_frame (k : Nat) (s : State) :
    (scanlines k s).gfx.dot = s.gfx.dot - 341 * k ∧ (scanlines k s).fault = s.fault ∧ (scanlines k s).cfg = s.cfg ∧
      (scanlines k s).lastCycles = s.lastCycles := by
  induction k generalizing s with
  | zero => exact ⟨rfl, rfl, rfl, rfl⟩
  | succ k ih =>
    obtain ⟨h1, h2, h3, h4⟩ := ih (nextScanline s)
    obtain ⟨g1, -, g2, g3, g4⟩ := nextScanline_frame s
    refine ⟨?_, h2.trans g2, h3.trans g3, h4.trans g4⟩
    show (scanlines k (nextScanline s)).gfx.dot = _
    rw [h1, g1]
    omega

theorem scanlines_scanline (k : Nat) (s : State) (h : s.gfx.scanline < 262) :
    (scanlines k s).gfx.scanline = (s.gfx.scanline + k) % 262 := by
  induction k generalizing s with
  | zero => exact (Nat.mod_eq_of_lt h).symm
  | succ k ih =>
    have hs := (nextScanline_frame s).2.1
    show (scanlines k (nextScanline s)).gfx.scanline = _
    rw [ih (nextScanline s) (by rw [hs]; omega), hs]
    omega

theorem scanlines_add (j k : Nat) (s : State) : scanlines (j + k) s = scanlines k (scanlines j s) := by
  induction j generalizing s with
  | zero => rw [Nat.zero_add]; rfl
  | succ j ih =>
    rw [show j + 1 + k = (j + k) + 1 by omega]
    exact ih _

/-- What `advance` leaves alone. -/
theorem advance_frame (n : Nat) (s : State) :
    (advance n s).fault = s.fault ∧ (advance n s).cfg = s.cfg ∧ (advance n s).lastCycles = s.lastCycles := by
  unfold advance
  split
  · exact ⟨rfl, rfl, rfl⟩
  · exact (scanlines_frame _ _).2

/-- The part of the orchestrator step after the instruction is an advance (R341). -/
theorem catchUp_eq (before : Nat) (s : State) (h : s.cfg.intCyclesReachGraphics = true) :
    catchUp before s = advance (3 * (s.cycles - s.lastCycles)) (s.setLastCycles s.cycles) := by
  unfold catchUp
  rw [if_pos h]

/-- `advance` up to the end of the scanline (R320). -/
theorem advance_short (n : Nat) (s : State) (hf : s.fault = none) (h : s.gfx.dot + n < 341) :
    advance n s = s.setGfx { s.gfx with dot := s.gfx.dot + n } := by
  unfold advance
  rw [hf, Nat.div_eq_of_lt h]
  rfl

/-- `advance` past the end of the scanline: one turn of the loop, and the rest of it (R320). -/
theorem advance_line (n : Nat) (s : State) (hf : s.fault = none) (h : 341 ≤ s.gfx.dot + n) :
    advance n s = advance 0 (nextScanline (s.setGfx { s.gfx with dot := s.gfx.dot + n })) := by
  obtain ⟨hd, -, hf', -⟩ := nextScanline_frame (s.setGfx { s.gfx with dot := s.gfx.dot + n })
  generalize ht : s.setGfx { s.gfx with dot := s.gfx.dot + n } = t at *
  have htd : t.gfx.dot = s.gfx.dot + n := by rw [← ht]; rfl
  have htf : t.fault = none := by rw [← ht]; exact hf
  obtain ⟨k, hk⟩ : ∃ k, (s.gfx.dot + n) / 341 = k + 1 := ⟨(s.gfx.dot + n) / 341 - 1, by omega⟩
  have hk' : ((nextScanline t).gfx.dot + 0) / 341 = k := by rw [hd, htd]; omega
  unfold advance
  rw [hf, hf', htf, ht, hk, hk']
  rfl

end Sys2Proof.Machine
end

