-- ==== Sys2Proof/Tests/Slice0.lean ====
section
/-! SUPPORT. The model's own tests: the well-formedness smoke tests, every row's word decoded, the spec's worked examples run for one
step, and a witness for every statement of Certificates/Slice0/Obligations.lean that has hypotheses. Expected values come from the
spec: a vector V<n> or T<n> is a row of spec/95_test_vectors, R<n> an example of that rule. -/

namespace Sys2Proof.Tests

open Sys2Proof Sys2Proof.Machine

/-! ### Helpers -/

/-- The bytes decode to the instruction with nothing left, and it encodes to them. -/
def readsAs (row : List Byte × Instr) : Bool :=
  match decode row.1 with
  | .ok (i, []) => decide (i = row.2) && decide (encode row.2 = row.1)
  | _ => false

/-- Every row of a list reads as its instruction. -/
def allRead (rows : List (List Byte × Instr)) : Bool := rows.all readsAs

/-- Memory with some bytes stored. -/
def stored (cells : List (Nat × Byte)) : Memory := cells.foldl (fun m c => m.write c.1 c.2) []

/-- A processor about to run the bytes at 0x8000, in flat mode as sections 2 to 8 of the vectors assume. -/
def start (a x y sp p : Byte) (code : List Byte) (cells : List (Nat × Byte)) : State :=
  { State.reset with
    cfg := { Config.reference with busMode := .flat }
    cpu := { a := a, x := x, y := y, s := sp, pc := 0x8000, p := Flags.loadByte p }
    mem := (stored cells).overlay 0x8000 code }

/-- A machine in nes mode. -/
def nes : State := { State.reset with mem := stored [(0x10, 0xAB), (0x8000, 0xA9), (0x8001, 0x07)] }

/-- What one step leaves, if it answers a next state. -/
def after {α : Type} (look : State → α) (s : State) : Option α :=
  match step s with
  | .next t => some (look t)
  | .fault _ => none
  | .refused _ => none

/-- A and the status byte. -/
def aP (t : State) : Byte × Byte := (t.cpu.a, t.cpu.p.asByte)

/-- X and the status byte. -/
def xP (t : State) : Byte × Byte := (t.cpu.x, t.cpu.p.asByte)

/-- Y and the status byte. -/
def yP (t : State) : Byte × Byte := (t.cpu.y, t.cpu.p.asByte)

/-- The status byte. -/
def statusOf (t : State) : Byte := t.cpu.p.asByte

/-- The program counter and the cycle count. -/
def pcCyc (t : State) : Word × Nat := (t.cpu.pc, t.cycles)

/-! ### Well-formedness: ill-formed pairs are refused (R103, R105, R106) -/

theorem test_wf_group01_no_zero_page_y : (Op.adc (.memory (.zeroPageY 0x10))).wellFormed = false := by decide
theorem test_wf_sta_no_zero_page_y : (Op.sta (.zeroPageY 0x10)).wellFormed = false := by decide
theorem test_wf_ldx_no_zero_page_x : (Op.ldx (.memory (.zeroPageX 0x10))).wellFormed = false := by decide
theorem test_wf_ldy_no_absolute_y : (Op.ldy (.memory (.absoluteY 0x1234))).wellFormed = false := by decide
theorem test_wf_cpx_no_index : (Op.cpx (.memory (.absoluteX 0x1234))).wellFormed = false := by decide
theorem test_wf_bit_no_index : (Op.bit (.absoluteX 0x1234)).wellFormed = false := by decide
theorem test_wf_stx_no_zero_page_x : (Op.stx (.zeroPageX 0x10)).wellFormed = false := by decide
theorem test_wf_sty_no_absolute_x : (Op.sty (.absoluteX 0x1234)).wellFormed = false := by decide
theorem test_wf_inc_no_indirect : (Op.inc (.indirectY 0x10)).wellFormed = false := by decide
theorem test_wf_asl_no_absolute_y : (Op.asl (.memory (.absoluteY 0x1234))).wellFormed = false := by decide
theorem test_wf_row_is_well_formed : (Instr.stxZpY 0x10).wellFormed = true := by decide

/-! ### Decoding: every row's word, written bit by bit -/

/-- Source: the opcode bits of R106, ADC, SBC, CMP, CPX, CPY. -/
theorem test_decode_arithmetic :
    allRead [([0b011_000_01, 0x9C], .adcIndX 0x9C), ([0b011_001_01, 0x9C], .adcZp 0x9C),
      ([0b011_010_01, 0x9C], .adcImm 0x9C), ([0b011_011_01, 0x34, 0x12], .adcAbs 0x1234),
      ([0b011_100_01, 0x9C], .adcIndY 0x9C), ([0b011_101_01, 0x9C], .adcZpX 0x9C),
      ([0b011_110_01, 0x34, 0x12], .adcAbsY 0x1234), ([0b011_111_01, 0x34, 0x12], .adcAbsX 0x1234),
      ([0b110_000_00, 0x9C], .cpyImm 0x9C), ([0b110_000_01, 0x9C], .cmpIndX 0x9C)] ∧
    allRead [([0b110_001_00, 0x9C], .cpyZp 0x9C), ([0b110_001_01, 0x9C], .cmpZp 0x9C), ([0b110_010_01, 0x9C], .cmpImm 0x9C),
      ([0b110_011_00, 0x34, 0x12], .cpyAbs 0x1234), ([0b110_011_01, 0x34, 0x12], .cmpAbs 0x1234),
      ([0b110_100_01, 0x9C], .cmpIndY 0x9C), ([0b110_101_01, 0x9C], .cmpZpX 0x9C),
      ([0b110_110_01, 0x34, 0x12], .cmpAbsY 0x1234), ([0b110_111_01, 0x34, 0x12], .cmpAbsX 0x1234),
      ([0b111_000_00, 0x9C], .cpxImm 0x9C)] ∧
    allRead [([0b111_000_01, 0x9C], .sbcIndX 0x9C), ([0b111_001_00, 0x9C], .cpxZp 0x9C),
      ([0b111_001_01, 0x9C], .sbcZp 0x9C), ([0b111_010_01, 0x9C], .sbcImm 0x9C),
      ([0b111_011_00, 0x34, 0x12], .cpxAbs 0x1234), ([0b111_011_01, 0x34, 0x12], .sbcAbs 0x1234),
      ([0b111_100_01, 0x9C], .sbcIndY 0x9C), ([0b111_101_01, 0x9C], .sbcZpX 0x9C),
      ([0b111_110_01, 0x34, 0x12], .sbcAbsY 0x1234), ([0b111_111_01, 0x34, 0x12], .sbcAbsX 0x1234)] := by decide

/-- Source: the opcode bits of R106, ORA, AND, EOR, BIT. -/
theorem test_decode_logic :
    allRead [([0b000_000_01, 0x9C], .oraIndX 0x9C), ([0b000_001_01, 0x9C], .oraZp 0x9C),
      ([0b000_010_01, 0x9C], .oraImm 0x9C), ([0b000_011_01, 0x34, 0x12], .oraAbs 0x1234),
      ([0b000_100_01, 0x9C], .oraIndY 0x9C), ([0b000_101_01, 0x9C], .oraZpX 0x9C),
      ([0b000_110_01, 0x34, 0x12], .oraAbsY 0x1234), ([0b000_111_01, 0x34, 0x12], .oraAbsX 0x1234),
      ([0b001_000_01, 0x9C], .andIndX 0x9C), ([0b001_001_00, 0x9C], .bitZp 0x9C)] ∧
    allRead [([0b001_001_01, 0x9C], .andZp 0x9C), ([0b001_010_01, 0x9C], .andImm 0x9C),
      ([0b001_011_00, 0x34, 0x12], .bitAbs 0x1234), ([0b001_011_01, 0x34, 0x12], .andAbs 0x1234),
      ([0b001_100_01, 0x9C], .andIndY 0x9C), ([0b001_101_01, 0x9C], .andZpX 0x9C),
      ([0b001_110_01, 0x34, 0x12], .andAbsY 0x1234), ([0b001_111_01, 0x34, 0x12], .andAbsX 0x1234),
      ([0b010_000_01, 0x9C], .eorIndX 0x9C), ([0b010_001_01, 0x9C], .eorZp 0x9C)] ∧
    allRead [([0b010_010_01, 0x9C], .eorImm 0x9C), ([0b010_011_01, 0x34, 0x12], .eorAbs 0x1234),
      ([0b010_100_01, 0x9C], .eorIndY 0x9C), ([0b010_101_01, 0x9C], .eorZpX 0x9C),
      ([0b010_110_01, 0x34, 0x12], .eorAbsY 0x1234), ([0b010_111_01, 0x34, 0x12], .eorAbsX 0x1234)] := by decide

/-- Source: the opcode bits of R106, ASL, LSR, ROL, ROR, INC, DEC. -/
theorem test_decode_shift_rmw :
    allRead [([0b000_001_10, 0x9C], .aslZp 0x9C), ([0b000_010_10], .aslAcc), ([0b000_011_10, 0x34, 0x12], .aslAbs 0x1234),
      ([0b000_101_10, 0x9C], .aslZpX 0x9C), ([0b000_111_10, 0x34, 0x12], .aslAbsX 0x1234),
      ([0b001_001_10, 0x9C], .rolZp 0x9C), ([0b001_010_10], .rolAcc), ([0b001_011_10, 0x34, 0x12], .rolAbs 0x1234),
      ([0b001_101_10, 0x9C], .rolZpX 0x9C), ([0b001_111_10, 0x34, 0x12], .rolAbsX 0x1234)] ∧
    allRead [([0b010_001_10, 0x9C], .lsrZp 0x9C), ([0b010_010_10], .lsrAcc), ([0b010_011_10, 0x34, 0x12], .lsrAbs 0x1234),
      ([0b010_101_10, 0x9C], .lsrZpX 0x9C), ([0b010_111_10, 0x34, 0x12], .lsrAbsX 0x1234),
      ([0b011_001_10, 0x9C], .rorZp 0x9C), ([0b011_010_10], .rorAcc), ([0b011_011_10, 0x34, 0x12], .rorAbs 0x1234),
      ([0b011_101_10, 0x9C], .rorZpX 0x9C), ([0b011_111_10, 0x34, 0x12], .rorAbsX 0x1234)] ∧
    allRead [([0b110_001_10, 0x9C], .decZp 0x9C), ([0b110_011_10, 0x34, 0x12], .decAbs 0x1234),
      ([0b110_101_10, 0x9C], .decZpX 0x9C), ([0b110_111_10, 0x34, 0x12], .decAbsX 0x1234),
      ([0b111_001_10, 0x9C], .incZp 0x9C), ([0b111_011_10, 0x34, 0x12], .incAbs 0x1234),
      ([0b111_101_10, 0x9C], .incZpX 0x9C), ([0b111_111_10, 0x34, 0x12], .incAbsX 0x1234)] := by decide

/-- Source: the opcode bits of R106, LDA, LDX, LDY. -/
theorem test_decode_load :
    allRead [([0b101_000_00, 0x9C], .ldyImm 0x9C), ([0b101_000_01, 0x9C], .ldaIndX 0x9C),
      ([0b101_000_10, 0x9C], .ldxImm 0x9C), ([0b101_001_00, 0x9C], .ldyZp 0x9C), ([0b101_001_01, 0x9C], .ldaZp 0x9C),
      ([0b101_001_10, 0x9C], .ldxZp 0x9C), ([0b101_010_01, 0x9C], .ldaImm 0x9C),
      ([0b101_011_00, 0x34, 0x12], .ldyAbs 0x1234), ([0b101_011_01, 0x34, 0x12], .ldaAbs 0x1234),
      ([0b101_011_10, 0x34, 0x12], .ldxAbs 0x1234)] ∧
    allRead [([0b101_100_01, 0x9C], .ldaIndY 0x9C), ([0b101_101_00, 0x9C], .ldyZpX 0x9C),
      ([0b101_101_01, 0x9C], .ldaZpX 0x9C), ([0b101_101_10, 0x9C], .ldxZpY 0x9C),
      ([0b101_110_01, 0x34, 0x12], .ldaAbsY 0x1234), ([0b101_111_00, 0x34, 0x12], .ldyAbsX 0x1234),
      ([0b101_111_01, 0x34, 0x12], .ldaAbsX 0x1234), ([0b101_111_10, 0x34, 0x12], .ldxAbsY 0x1234)] := by decide

/-- Source: the opcode bits of R106, STA, STX, STY. -/
theorem test_decode_store :
    allRead [([0b100_000_01, 0x9C], .staIndX 0x9C), ([0b100_001_00, 0x9C], .styZp 0x9C),
      ([0b100_001_01, 0x9C], .staZp 0x9C), ([0b100_001_10, 0x9C], .stxZp 0x9C),
      ([0b100_011_00, 0x34, 0x12], .styAbs 0x1234), ([0b100_011_01, 0x34, 0x12], .staAbs 0x1234),
      ([0b100_011_10, 0x34, 0x12], .stxAbs 0x1234), ([0b100_100_01, 0x9C], .staIndY 0x9C),
      ([0b100_101_00, 0x9C], .styZpX 0x9C), ([0b100_101_01, 0x9C], .staZpX 0x9C)] ∧
    allRead [([0b100_101_10, 0x9C], .stxZpY 0x9C), ([0b100_110_01, 0x34, 0x12], .staAbsY 0x1234),
      ([0b100_111_01, 0x34, 0x12], .staAbsX 0x1234)] := by decide

/-- Source: the opcode bits of R106, the transfers, increments and NOP. -/
theorem test_decode_transfer :
    allRead [([0b100_010_00], .dey), ([0b100_010_10], .txa), ([0b100_110_00], .tya), ([0b100_110_10], .txs),
      ([0b101_010_00], .tay), ([0b101_010_10], .tax), ([0b101_110_10], .tsx), ([0b110_010_00], .iny),
      ([0b110_010_10], .dex), ([0b111_010_00], .inx)] ∧
    allRead [([0b111_010_10], .nop)] := by decide

/-- Source: the opcode bits of R106, PHA, PHP, PLA, PLP. -/
theorem test_decode_stack :
    allRead [([0b000_010_00], .php), ([0b001_010_00], .plp), ([0b010_010_00], .pha), ([0b011_010_00], .pla)] := by decide

/-- Source: the opcode bits of R106, the flag instructions. -/
theorem test_decode_flag :
    allRead [([0b000_110_00], .clc), ([0b001_110_00], .sec), ([0b010_110_00], .cli), ([0b011_110_00], .sei),
      ([0b101_110_00], .clv), ([0b110_110_00], .cld), ([0b111_110_00], .sed)] := by decide

/-- Source: the opcode bits of R106, branches, jumps, calls, returns and BRK. -/
theorem test_decode_control :
    allRead [([0b000_000_00], .brk), ([0b000_100_00, 0x9C], .bpl 0x9C), ([0b001_000_00, 0x34, 0x12], .jsr 0x1234),
      ([0b001_100_00, 0x9C], .bmi 0x9C), ([0b010_000_00], .rti), ([0b010_011_00, 0x34, 0x12], .jmpAbs 0x1234),
      ([0b010_100_00, 0x9C], .bvc 0x9C), ([0b011_000_00], .rts), ([0b011_011_00, 0x34, 0x12], .jmpInd 0x1234),
      ([0b011_100_00, 0x9C], .bvs 0x9C)] ∧
    allRead [([0b100_100_00, 0x9C], .bcc 0x9C), ([0b101_100_00, 0x9C], .bcs 0x9C), ([0b110_100_00, 0x9C], .bne 0x9C),
      ([0b111_100_00, 0x9C], .beq 0x9C)] := by decide
/-- Source: R104 and V80 to V82. -/
theorem test_decode_fatal :
    decode [0x02] = .error (.fatal .unknownOpcode 0x02) ∧ decode [0x80, 0x00] = .error (.fatal .unknownOpcode 0x80) ∧
      decode [0xFF] = .error (.fatal .unknownOpcode 0xFF) ∧ decode [0x89, 0x00] = .error (.fatal .noAddress 0x89) :=
  ⟨rfl, rfl, rfl, rfl⟩

/-! ### Arithmetic -/

theorem test_adc_overflow :  -- T3
    after (fun t => (aP t, pcCyc t)) (start 0x50 0 0 0xFD 0x20 [0x69, 0x50] []) = some ((0xA0, 0xE0), (0x8002, 2)) := by decide
theorem test_adc_ignores_decimal :  -- V6
    after aP (start 0x09 0 0 0xFD 0x28 [0x69, 0x09] []) = some (0x12, 0x28) := by decide
theorem test_sbc_overflow :  -- V8
    after aP (start 0x80 0 0 0xFD 0x21 [0xE9, 0x01] []) = some (0x7F, 0x61) := by decide
theorem test_sbc_borrow_in :  -- V11
    after aP (start 0x05 0 0 0xFD 0x20 [0xE9, 0x05] []) = some (0xFF, 0xA0) := by decide
theorem test_cmp_borrow :  -- T4
    after aP (start 0x10 0 0 0xFD 0x20 [0xC9, 0x20] []) = some (0x10, 0xA0) := by decide
theorem test_cmp_wide_difference :  -- V14
    after aP (start 0x00 0 0 0xFD 0x20 [0xC9, 0xFF] []) = some (0x00, 0x20) := by decide
theorem test_cpx : after xP (start 0 0x00 0 0xFD 0x20 [0xE0, 0x80] []) = some (0x00, 0xA0) := by decide  -- V15
theorem test_cpy : after yP (start 0 0 0x80 0xFD 0x20 [0xC0, 0x00] []) = some (0x80, 0xA1) := by decide  -- V16

/-! ### Logic -/

theorem test_and : after aP (start 0xF0 0 0 0xFD 0x20 [0x29, 0x0F] []) = some (0x00, 0x22) := by decide  -- V24
theorem test_ora : after aP (start 0x01 0 0 0xFD 0x22 [0x09, 0x80] []) = some (0x81, 0xA0) := by decide  -- V25
theorem test_eor : after aP (start 0xFF 0 0 0xFD 0x20 [0x49, 0xFF] []) = some (0x00, 0x22) := by decide  -- V26
theorem test_bit_flags_from_memory :  -- V27
    after (fun t => (aP t, t.cycles)) (start 0x01 0 0 0xFD 0x20 [0x24, 0x10] [(0x10, 0xC0)]) =
      some ((0x01, 0xE2), 3) := by decide

/-! ### Shifts and read-modify-write -/

theorem test_asl_drops_old_carry : after aP (start 0x41 0 0 0xFD 0x21 [0x0A] []) = some (0x82, 0xA0) := by decide  -- V30
theorem test_lsr : after aP (start 0x01 0 0 0xFD 0x20 [0x4A] []) = some (0x00, 0x23) := by decide  -- V31
theorem test_rol : after aP (start 0x00 0 0 0xFD 0x21 [0x2A] []) = some (0x01, 0x20) := by decide  -- V33
theorem test_ror : after aP (start 0x01 0 0 0xFD 0x21 [0x6A] []) = some (0x80, 0xA1) := by decide  -- V34
theorem test_ror_memory :  -- V35
    after (fun t => (t.mem.read 0x10, statusOf t, t.cycles)) (start 0 0 0 0xFD 0x20 [0x66, 0x10] [(0x10, 0x02)]) =
      some (0x01, 0x20, 5) := by decide
theorem test_inc :  -- V36
    after (fun t => (t.mem.read 0x10, statusOf t, t.cycles)) (start 0 0 0 0xFD 0x20 [0xE6, 0x10] [(0x10, 0xFF)]) =
      some (0x00, 0x22, 5) := by decide
theorem test_dec :  -- V37
    after (fun t => (t.mem.read 0x10, statusOf t, t.cycles)) (start 0 0 0 0xFD 0x20 [0xC6, 0x10] []) =
      some (0xFF, 0xA0, 5) := by decide

/-! ### Loads, stores, addressing -/

theorem test_lda_zero_page_wraps :  -- T2
    after (fun t => (aP t, pcCyc t)) (start 0 0x02 0 0xFD 0x20 [0xB5, 0xFF] [(0x01, 0x77), (0x101, 0x99)]) =
      some ((0x77, 0x20), (0x8002, 4)) := by decide
theorem test_lda_indirect_y_pointer_wraps :  -- V46
    after (fun t => (aP t, t.cycles)) (start 0 0 0x01 0xFD 0x20 [0xB1, 0xFF] [(0xFF, 0xFF), (0x00, 0x12), (0x1300, 0xCD)]) =
      some ((0xCD, 0xA0), 5) := by decide
theorem test_effective_address_absolute_x_wraps :  -- V43
    (effAddr (.absoluteX 0xFFFF) (start 0 0x01 0 0xFD 0x20 [] [])).1 = 0x0000 := by decide
theorem test_effective_address_indirect_x :  -- V45
    (effAddr (.indirectX 0xFE) (start 0 0x03 0 0xFD 0x20 [] [(0x01, 0x00), (0x02, 0x03)])).1 = 0x0300 := by decide
theorem test_ldx_zero_page_y_wraps :  -- V42
    after (fun t => (t.cpu.x, t.cycles)) (start 0 0 0x01 0xFD 0x20 [0xB6, 0xFF] [(0x00, 0x42)]) = some (0x42, 4) := by decide
theorem test_ldy : after yP (start 0 0 0 0xFD 0x22 [0xA0, 0x7F] []) = some (0x7F, 0x20) := by decide  -- R222
theorem test_sta_indirect_y_wraps :  -- V48
    after (fun t => (t.mem.read 0x0001, t.cycles)) (start 0x3C 0 0x02 0xFD 0x20 [0x91, 0x10] [(0x10, 0xFF), (0x11, 0xFF)]) =
      some (0x3C, 6) := by decide
theorem test_stx : after (fun t => t.mem.read 0x10) (start 0 0x07 0 0xFD 0x20 [0x86, 0x10] []) = some 0x07 := by decide  -- R224
theorem test_sty_wraps :  -- R225
    after (fun t => t.mem.read 0x01) (start 0 0x02 0x09 0xFD 0x20 [0x94, 0xFF] []) = some 0x09 := by decide

/-! ### Transfers, increments, NOP -/

theorem test_tax : after xP (start 0x00 0x55 0 0xFD 0x20 [0xAA] []) = some (0x00, 0x22) := by decide  -- R226
theorem test_tay : after yP (start 0x00 0 0x12 0xFD 0xA0 [0xA8] []) = some (0x00, 0x22) := by decide  -- V51
theorem test_txa : after aP (start 0x55 0x01 0 0xFD 0x22 [0x8A] []) = some (0x01, 0x20) := by decide  -- R228
theorem test_tya : after aP (start 0x55 0 0xFF 0xFD 0x20 [0x98] []) = some (0xFF, 0xA0) := by decide  -- R229
theorem test_tsx : after xP (start 0 0 0 0x80 0x20 [0xBA] []) = some (0x80, 0xA0) := by decide  -- V50
theorem test_txs_no_flags :  -- V49
    after (fun t => (t.cpu.s, statusOf t)) (start 0 0x00 0 0xFD 0x20 [0x9A] []) = some (0x00, 0x20) := by decide
theorem test_inx : after xP (start 0 0xFF 0 0xFD 0x20 [0xE8] []) = some (0x00, 0x22) := by decide  -- V38
theorem test_iny : after yP (start 0 0 0x00 0xFD 0x20 [0xC8] []) = some (0x01, 0x20) := by decide  -- R233
theorem test_dex : after xP (start 0 0x01 0 0xFD 0x20 [0xCA] []) = some (0x00, 0x22) := by decide  -- R234
theorem test_dey : after yP (start 0 0 0x00 0xFD 0x20 [0x88] []) = some (0xFF, 0xA0) := by decide  -- V39
theorem test_nop_pc_wraps :  -- V52
    after pcCyc { start 0 0 0 0xFD 0x24 [] [(0xFFFF, 0xEA)] with
      cpu := { a := 0, x := 0, y := 0, s := 0xFD, pc := 0xFFFF, p := Flags.reset } } = some (0x0000, 2) := by decide

/-! ### Stack -/

theorem test_pha_wraps :  -- T5
    after (fun t => (t.mem.read 0x100, t.cpu.s, t.cycles)) (start 0x33 0 0 0x00 0x20 [0x48] []) =
      some (0x33, 0xFF, 3) := by decide
theorem test_php_forces_break :  -- V56
    after (fun t => (t.mem.read 0x1FD, t.cpu.p.b)) (start 0 0 0 0xFD 0xEF [0x08] []) = some (0xFF, false) := by decide
theorem test_pla_wraps :  -- V54
    after (fun t => (aP t, t.cpu.s)) (start 0 0 0 0xFF 0x20 [0x68] [(0x100, 0x80)]) = some ((0x80, 0xA0), 0x00) := by decide
theorem test_plp_keeps_break_clear :  -- V57
    after (fun t => (statusOf t, t.cpu.s)) (start 0 0 0 0xFC 0x20 [0x28] [(0x1FD, 0xFF)]) = some (0xEF, 0xFD) := by decide
theorem test_plp_keeps_break_set :  -- V58
    after statusOf (start 0 0 0 0xFC 0xFF [0x28] []) = some 0x30 := by decide

/-! ### Flag instructions -/

theorem test_clc : after statusOf (start 0 0 0 0xFD 0x25 [0x18] []) = some 0x24 := by decide  -- V17
theorem test_sec : after statusOf (start 0 0 0 0xFD 0x24 [0x38] []) = some 0x25 := by decide  -- V18
theorem test_cli : after statusOf (start 0 0 0 0xFD 0x24 [0x58] []) = some 0x20 := by decide  -- V19
theorem test_sei : after statusOf (start 0 0 0 0xFD 0x20 [0x78] []) = some 0x24 := by decide  -- V20
theorem test_clv : after statusOf (start 0 0 0 0xFD 0x60 [0xB8] []) = some 0x20 := by decide  -- V21
theorem test_cld : after statusOf (start 0 0 0 0xFD 0x28 [0xD8] []) = some 0x20 := by decide  -- V22
theorem test_sed : after statusOf (start 0 0 0 0xFD 0x20 [0xF8] []) = some 0x28 := by decide  -- V23

/-! ### Branches -/

theorem test_bpl_taken : after pcCyc (start 0 0 0 0xFD 0x20 [0x10, 0x04] []) = some (0x8006, 2) := by decide  -- V59
theorem test_bpl_not_taken : after pcCyc (start 0 0 0 0xFD 0xA0 [0x10, 0x04] []) = some (0x8002, 2) := by decide  -- V60
theorem test_bmi : after pcCyc (start 0 0 0 0xFD 0xA0 [0x30, 0x04] []) = some (0x8006, 2) := by decide  -- V61
theorem test_bvc : after pcCyc (start 0 0 0 0xFD 0x20 [0x50, 0x80] []) = some (0x7F82, 2) := by decide  -- R263
theorem test_bvs : after pcCyc (start 0 0 0 0xFD 0x60 [0x70, 0x7F] []) = some (0x8081, 2) := by decide  -- R264
theorem test_bcc : after pcCyc (start 0 0 0 0xFD 0x21 [0x90, 0x04] []) = some (0x8002, 2) := by decide  -- V64
theorem test_bcs : after pcCyc (start 0 0 0 0xFD 0x21 [0xB0, 0x04] []) = some (0x8006, 2) := by decide  -- V65
theorem test_bne_self_loop : after pcCyc (start 0 0 0 0xFD 0x20 [0xD0, 0xFE] []) = some (0x8000, 2) := by decide  -- V68
theorem test_beq_backward : after pcCyc (start 0 0 0 0xFD 0x22 [0xF0, 0x80] []) = some (0x7F82, 2) := by decide  -- V69

/-! ### Jumps, calls, returns, interrupts -/

theorem test_jmp_absolute : after pcCyc (start 0 0 0 0xFD 0x20 [0x4C, 0x00, 0xC0] []) = some (0xC000, 3) := by decide  -- R269
theorem test_jmp_indirect_page_wrap :  -- V72
    after pcCyc (start 0 0 0 0xFD 0x20 [0x6C, 0xFF, 0x02] [(0x2FF, 0x34), (0x300, 0x56), (0x200, 0x12)]) =
      some (0x1234, 5) := by decide
theorem test_jsr :  -- V73
    after (fun t => (t.mem.read 0x1FD, t.mem.read 0x1FC, t.cpu.s, pcCyc t)) (start 0 0 0 0xFD 0x20 [0x20, 0x00, 0x90] []) =
      some (0x80, 0x02, 0xFB, (0x9000, 6)) := by decide
theorem test_rts_wraps :  -- V75
    after (fun t => t.cpu.pc) (start 0 0 0 0xFB 0x20 [0x60] [(0x1FC, 0xFF), (0x1FD, 0xFF)]) = some 0x0000 := by decide
theorem test_rti_no_plus_one :  -- V76
    after (fun t => (statusOf t, t.cpu.s, pcCyc t))
      (start 0 0 0 0xFA 0x24 [0x40] [(0x1FB, 0x20), (0x1FC, 0x34), (0x1FD, 0x12)]) =
      some (0x20, 0xFD, (0x1234, 6)) := by decide
theorem test_rti_keeps_break :  -- V77
    after (fun t => (statusOf t, t.cpu.pc)) (start 0 0 0 0xFA 0x20 [0x40] [(0x1FB, 0xFF), (0x1FC, 0x00), (0x1FD, 0x80)]) =
      some (0xEF, 0x8000) := by decide
theorem test_brk :  -- V78
    after (fun t => ((t.mem.read 0x1FD, t.mem.read 0x1FC, t.mem.read 0x1FB), t.cpu.s, statusOf t, pcCyc t))
      (start 0 0 0 0xFD 0x20 [0x00, 0xEA] [(0xFFFF, 0x90)]) =
      some ((0x80, 0x02, 0x30), 0xFA, 0x24, (0x9000, 7)) := by decide
theorem test_brk_keeps_decimal :  -- V79
    after (fun t => (t.mem.read 0x1FB, statusOf t)) (start 0 0 0 0xFD 0x2D [0x00, 0xEA] []) = some (0x3D, 0x2D) := by decide
theorem test_nmi_entry :  -- T6
    let t := nmiEntry { start 0 0 0 0xFD 0xE3 [] [(0xFFFB, 0x80)] with
      cpu := { a := 0, x := 0, y := 0, s := 0xFD, pc := 0x1234, p := Flags.loadByte 0xE3 } }
    (t.mem.read 0x1FD, t.mem.read 0x1FC, t.mem.read 0x1FB, t.cpu.s, statusOf t, pcCyc t) =
      (0x12, 0x34, 0xE3, 0xFA, 0xE7, (0x8000, 7)) := by decide
theorem test_irq_dropped :  -- V84
    irqEntry (start 0 0 0 0xFD 0x24 [] [(0xFFFF, 0x90)]) = start 0 0 0 0xFD 0x24 [] [(0xFFFF, 0x90)] := by decide
theorem test_irq_entry :  -- V85, with PC 0x8000
    let t := irqEntry (start 0 0 0 0xFD 0x20 [] [(0xFFFF, 0x90)])
    (t.mem.read 0x1FD, t.mem.read 0x1FB, t.cpu.s, statusOf t, pcCyc t) = (0x80, 0x20, 0xFA, 0x24, (0x9000, 7)) := by decide
theorem test_reset_entry :  -- V87
    let t := resetCpu { start 0x05 0x06 0x07 0x10 0xFF [] [(0xFFFC, 0x34), (0xFFFD, 0x12)] with cycles := 99 }
    (aP t, t.cpu.x, t.cpu.y, t.cpu.s, pcCyc t) = ((0x00, 0x24), 0x00, 0x00, 0xFD, (0x1234, 99)) := by decide
theorem test_reset_vector_mirrored :  -- V88
    (resetCpu { nes with cfg := { Config.reference with prgUnits := .one }, mem := stored [(0xBFFD, 0xC0)] }).cpu.pc =
      0xC000 := by decide

/-! ### Faults -/

theorem test_unknown_opcode :  -- V80
    after (fun t => (t.fault.isSome, pcCyc t)) (start 0 0 0 0xFD 0x20 [0x02] []) = some (true, (0x8001, 0)) := by decide
theorem test_no_address :  -- V81
    after (fun t => match t.fault with
      | some (.noAddress i) => some (i.opcode, i.addr, i.snapshot.pc)
      | _ => none) (start 0 0 0 0xFD 0x20 [0x89] []) = some (some (0x89, 0x8000, 0x8001)) := by decide

/-! ### The bus and the graphics unit -/

theorem test_ram_mirror : (busRead 0x1801 (busWrite 0x0801 0x5A nes)).1 = 0x5A := by decide  -- V89
theorem test_rom_writes_ignored :  -- V91
    (busWrite 0x8000 0x55 { nes with cfg := { Config.reference with romWrites := .ignore } }).mem = nes.mem := by decide
theorem test_rom_writes_mirrored :  -- V92
    (busWrite 0xC123 0x55 { nes with cfg := { Config.reference with prgUnits := .one } }).mem.read 0x8123 = 0x55 := by decide
theorem test_data_register_writes :  -- V95
    let t := busWrite 0x2007 0xBB (busWrite 0x2007 0xAA (busWrite 0x2006 0x08 (busWrite 0x2006 0x21 nes)))
    (t.gfx.vram.read 0x2108, t.gfx.vram.read 0x2109, t.gfx.ptr) = (0xAA, 0xBB, 0x210A) := by decide
theorem test_data_register_increment_32 :  -- V96
    let t := busWrite 0x2007 0x02 (busWrite 0x2007 0x01 (busWrite 0x2006 0x00 (busWrite 0x2006 0x20 (busWrite 0x2000 0x04 nes))))
    (t.gfx.vram.read 0x2020, t.gfx.ptr) = (0x02, 0x2040) := by decide
theorem test_data_register_palette_read :  -- V98
    let s := { nes with gfx := { nes.gfx with buffer := 0x99, vram := stored [(0x3F01, 0x2C)] } }
    let r := busRead 0x2007 (busWrite 0x2006 0x01 (busWrite 0x2006 0x3F s))
    (r.1, r.2.gfx.buffer, r.2.gfx.ptr) = (0x2C, 0x99, 0x3F02) := by decide
theorem test_address_wraps : (busWrite 0x2006 0x00 (busWrite 0x2006 0x7F nes)).gfx.ptr = 0x3F00 := by decide  -- V100
theorem test_status_read_resets_latch :  -- V102
    let t := busWrite 0x2006 0x34 (busRead 0x2002 (busWrite 0x2006 0x12 nes)).2
    (t.gfx.ptr, t.gfx.w) = (0x3400, true) := by decide
theorem test_palette_entry_zero :  -- T9
    let t := busWrite 0x2007 0x0F (busWrite 0x2006 0x08 (busWrite 0x2006 0x3F nes))
    (t.gfx.vram.read 0x3F00, t.gfx.vram.read 0x3F0C, t.gfx.vram.read 0x3F10, t.gfx.vread .horizontal 0x3FE4, t.gfx.ptr) =
      (0x0F, 0x0F, 0x00, 0x0F, 0x3F09) := by decide
theorem test_nametable_mirroring :  -- the table of section 11
    (vnorm .vertical 0x2C05, vnorm .horizontal 0x2400, vnorm .horizontal 0x2C05, vnorm .fourScreen 0x3EFF,
      vnorm .vertical 0x3EFF) = (0x2405, 0x2000, 0x2405, 0x2EFF, 0x26FF) := by decide
theorem test_composer_pixel :  -- section 11: row 16, columns 24 and 25
    let g := { nes.gfx with snapNT := stored [(67, 0x01), (0x3C0, 0xC0)], snapPal := stored [(15, 0x16)],
                            vram := stored [(0x0010, 0x80), (0x0018, 0x80)] }
    (g.pixel .horizontal 16 24, g.pixel .horizontal 16 25) = (0x16, 0x00) := by decide
theorem test_input_no_shift_while_capturing :  -- V105, for the button byte as a state
    (busRead 0x4016 { nes with input := { capture := true, latch := 0x85 } }).1 = 0x41 := by decide
theorem test_input_shift :  -- V104, after the strobe
    let r := busRead 0x4016 { nes with input := { capture := false, latch := 0x85 } }
    (r.1, r.2.input.latch) = (0x41, 0xC2) := by decide
theorem test_sprite_dma :  -- V106, V107
    (busWrite 0x4014 0x0A { nes with mem := stored [(0x200, 0xA5)] }).gfx.oam.read 0 = 0xA5 := by decide

/-! ### Timing -/

theorem test_advance_keeps_remainder : (advance 340 nes).gfx.dot = 340 ∧ (advance 340 nes).gfx.scanline = 0 := by decide  -- V108
theorem test_advance_next_scanline :  -- V109
    let s := { nes with gfx := { nes.gfx with dot := 340 } }
    (advance 1 s).gfx.scanline = 1 ∧ (advance 1 s).gfx.dot = 0 := by decide
theorem test_vblank_begins :  -- V111
    let s := { nes with gfx := { nes.gfx with scanline := 240, dot := 340 } }
    ((advance 1 s).gfx.vblank, (advance 1 s).framesReady, (advance 1 s).cycles) = (true, 1, 0) := by decide
theorem test_vblank_raises_nmi :  -- V111 with ctrl[7] = 1
    let s := { nes with gfx := { nes.gfx with scanline := 240, dot := 340, ctrl := 0x80 } }
    ((advance 1 s).cpu.s, (advance 1 s).cycles) = (0xFA, 7) := by decide
theorem test_halted_step : step { nes with halted := true } = .next { nes with halted := true } := rfl  -- V115
theorem test_halted_step_keeps_outstanding_cycles :  -- R345, U22
    step { nes with halted := true, cycles := 7 } = .next { nes with halted := true, cycles := 7 } := rfl
theorem test_fetch_from_the_input_latch :  -- R74, R89: an empty latch reads 0x40, which is RTI
    after (fun t => (t.cycles, t.cpu.s, t.input.latch)) { nes with cpu := { nes.cpu with pc := 0x4016 } } =
      some (6, 0x00, 0x80) := by decide
theorem test_orchestrator_step :  -- V116
    after (fun t => (pcCyc t, t.gfx.dot, t.lastCycles)) (start 0 0 0 0xFD 0x24 [0xEA] []) = some ((0x8001, 2), 6, 2) := by decide

/-! ### Loading -/

theorem test_load_bad_magic :  -- V121
    loadImage ([0x4E, 0x45, 0x53, 0x00] ++ List.replicate 12 0) =
      .error (.unsupportedFormat ([0x4E, 0x45, 0x53, 0x00] ++ List.replicate 12 0)) := by decide
theorem test_load_mapper_one :  -- V123
    loadImage ([0x4E, 0x45, 0x53, 0x1A, 0x01, 0x01, 0x10, 0x00] ++ List.replicate 8 0) =
      .error (.unsupportedFormat ([0x4E, 0x45, 0x53, 0x1A, 0x01, 0x01, 0x10, 0x00] ++ List.replicate 8 0)) := by decide
theorem test_load_too_large :  -- V126
    loadImage ([0x4E, 0x45, 0x53, 0x1A, 0x01, 0x02, 0x00, 0x00] ++ List.replicate 8 0) =
      .error (.imageTooLarge ([0x4E, 0x45, 0x53, 0x1A, 0x01, 0x02, 0x00, 0x00] ++ List.replicate 8 0)) := by decide

/-! ### Placing one instruction -/

/-- Operand bytes above the given bits are zero. -/
theorem test_table_word : (decodeTableWord 8 0xAD, decodeTableWord 16 0x50A9) = (some (.ldaAbs 0x0000), some (.ldaImm 0x50)) := by
  decide
theorem test_placed_word_runs : after aP (State.reset.withFetchWord 16 0x50A9) = some (0x50, 0x24) := by decide

/-! ### Witnesses: the hypotheses of each statement of Certificates/Slice0/Obligations.lean are met, one theorem per statement, with one
conjunct per clause, at the ends of its range -/

/-- A machine in nes mode about to run LDA #$07 at 0x8000. -/
def ready : State := { nes with cpu := { nes.cpu with pc := 0x8000 } }

/-- A machine that is about to fetch a byte at 0x8000. -/
def readyAt (op : Byte) : State := { ready with mem := stored [(0x8000, op)] }

/-- A fault record. -/
def someFault : Fault :=
  .unknownOpcode { opcode := 0x02, addr := 0x8000,
                   snapshot := { a := 0, x := 0, y := 0, s := 0xFD, pc := 0x8001, p := 0x24, cycles := 0 } }

theorem witness_DecodedBytesAreTheEncoding : decode [0xAD, 0x34, 0x12, 0xEA] = .ok (.ldaAbs 0x1234, [0xEA]) := rfl
theorem witness_WellFormedOperationsAreTheRows : (Instr.clc).op = (Instr.clc).op ∧ (Op.clc).wellFormed = true := by decide
/-- The bytes that the bus gives, read one after another from an address. -/
def readsFrom : Nat → Word → State → List Byte
  | 0, _, _ => []
  | k + 1, a, s => (busRead a s).1 :: readsFrom k (a + 1) (busRead a s).2

theorem witness_StepRunsTheDecodedInstruction :
    (let s := { ready with cpu := { ready.cpu with pc := 0x4016 } }
     s.running ∧ decode (readsFrom 1 s.begun.cpu.pc s.begun) = .ok (.rti, []) ∧ (Instr.rti).length = 1) ∧
    (let s := { ready with cpu := { ready.cpu with pc := 0xFFFF }, mem := stored [(0x0000, 0x07), (0xFFFF, 0xA9)] }
     s.running ∧ decode (readsFrom 2 s.begun.cpu.pc s.begun) = .ok (.ldaImm 0x07, [])) ∧
    (let s := { ready with mem := stored [(0x8000, 0xAD), (0x8001, 0x34), (0x8002, 0x12)], hostMoves := [.proceed, .nmi] }
     s.running ∧ s.begun.hostMoves = [.nmi] ∧ decode (readsFrom 3 s.begun.cpu.pc s.begun) = .ok (.ldaAbs 0x1234, [])) ∧
    (let q := ready.begun
     ready.running ∧
     decode [q.byteAt q.cpu.pc, q.byteAt (q.cpu.pc + 1), q.byteAt (q.cpu.pc + 2)] = .ok (.ldaImm 0x07, [0x00]) ∧
     ∀ k, k < (Instr.ldaImm 0x07).length → plainRead q.cfg (q.cpu.pc + BitVec.ofNat 16 k) = true) :=
  ⟨⟨by decide, rfl, rfl⟩, ⟨by decide, rfl⟩, ⟨by decide, rfl, rfl⟩, by decide, rfl, by decide⟩
theorem witness_CatchUpPassesThreeDotsPerCycle :
    let s := { ready with cycles := 7, gfx := { ready.gfx with dot := 340, scanline := 261 } }
    (s.fault = none ∧ s.gfx.dot < 341 ∧ s.gfx.scanline < 262 ∧ s.cfg.intCyclesReachGraphics = true) ∧
      ({ s with cfg := { s.cfg with intCyclesReachGraphics := false } }).cfg.intCyclesReachGraphics = false := by decide
theorem witness_PlacedWordIsRunNext :
    (decodeTableWord 8 0xEA, decodeTableWord 16 0x50A9, decodeTableWord 24 0x1234AD) =
      (some .nop, some (.ldaImm 0x50), some (.ldaAbs 0x1234)) := by decide
theorem witness_IllegalOpcodeEntersTheFaultedState :
    (let s := readyAt 0x02
     s.running ∧ opcodeForm (busRead s.cpu.pc s.begun).1 = .error .unknownOpcode) ∧
    (let s := { readyAt 0x89 with hostMoves := [.proceed, .irq] }
     s.running ∧ opcodeForm (busRead s.cpu.pc s.begun).1 = .error .noAddress) ∧
    (∃ k, opcodeForm 0xFF = .error k) :=
  ⟨⟨by decide, rfl⟩, ⟨by decide, rfl⟩, _, rfl⟩
theorem witness_FaultedMachineIsStuck : ({ ready with fault := some someFault }).fault = some someFault := rfl
theorem witness_OnlyIllegalOpcodesStopTheMachine :
    step { ready with fault := some someFault } = .fault someFault ∧
    after (fun t => t.fault.isSome) (readyAt 0x89) = some true ∧ after (fun t => t.fault.isSome) (readyAt 0xFF) = some true :=
  ⟨rfl, by decide, by decide⟩
theorem witness_HostMovesActBetweenSteps :
    ready.fault = none ∧
    (∀ m : HostMove, ({ ready with hostMoves := [m] }).hostMoves = m :: [] ∧ ({ ready with hostMoves := [m] }).fault = none) ∧
    (let s := { ready with halted := true, cycles := 7 }
     s.fault = none ∧ s.hostMoves = [] ∧ s.halted = true ∧ s.lastCycles < s.cycles ∧
       ({ s with hostMoves := [.proceed] }).hostMoves = .proceed :: []) :=
  ⟨rfl, fun _ => ⟨rfl, rfl⟩, by decide⟩
theorem witness_FlagsOutsideTheColumnAreKept :
    exec (.ldaImm 0x07) ready = .next (lda (.immediate 0x07) ready) ∧ FlagName.c ∉ flagsWritten (Instr.ldaImm 0x07).op :=
  ⟨rfl, by decide⟩
theorem witness_RegistersOutsideTheListsAreKept :
    exec .nop ready = .next ready ∧
    (writesA (Instr.nop).op, writesX (Instr.nop).op, writesY (Instr.nop).op, writesS (Instr.nop).op, writesPc (Instr.nop).op) =
      (false, false, false, false, false) := ⟨rfl, by decide⟩
theorem witness_MemoryOutsideTheStoresIsKept :
    exec .pha ready = .next (push ready.cpu.a ready) ∧
    (∀ b ∈ storeAddrs (Instr.pha).op ready, busIndex ready.cfg b ≠ busIndex ready.cfg 0x01FC) ∧
    ∀ b ∈ storeAddrs (Instr.nop).op ready, busIndex ready.cfg b ≠ busIndex ready.cfg 0x01FD :=
  ⟨rfl, List.forall_mem_singleton.2 (by decide), List.forall_mem_nil _⟩
theorem witness_DevicesAreKeptByPlainAccesses :
    exec (.incZp 0x10) ready = .next (rmwMem (.zeroPage 0x10) incFn ready) ∧
    (∀ a ∈ dataReads (Instr.incZp 0x10).op ready, plainRead ready.cfg a = true) ∧
    ∀ a ∈ storeAddrs (Instr.incZp 0x10).op ready, deviceWrite ready.cfg a = false :=
  ⟨rfl, List.forall_mem_singleton.2 (by decide), List.forall_mem_singleton.2 (by decide)⟩
theorem witness_OperandValues :
    plainRead ready.cfg (effAddr (.absolute 0x1FFF) ready).1 = true ∧
    plainRead ready.cfg (effAddr (.absolute 0x2000) ready).1 = false ∧
    plainRead ready.cfg (effAddr (.absolute 0x3FFF) ready).1 = false ∧
    plainRead ready.cfg (effAddr (.absolute 0x4016) ready).1 = false := by decide
theorem witness_AdcAddsWithCarry :
    (Instr.adcImm 0x50).op = .adc (.immediate 0x50) ∧ (Instr.adcIndY 0xFF).op = .adc (.memory (.indirectY 0xFF)) := ⟨rfl, rfl⟩
theorem witness_SbcSubtractsWithBorrow :
    (Instr.sbcImm 0x50).op = .sbc (.immediate 0x50) ∧ (Instr.sbcAbsX 0xFFFF).op = .sbc (.memory (.absoluteX 0xFFFF)) := ⟨rfl, rfl⟩
theorem witness_ComparesSetCarryZeroNegative :
    (Instr.cmpImm 0x20).op = .cmp (.immediate 0x20) ∧ (Instr.cpxZp 0xFF).op = .cpx (.memory (.zeroPage 0xFF)) ∧
      (Instr.cpyAbs 0x2002).op = .cpy (.memory (.absolute 0x2002)) := ⟨rfl, rfl, rfl⟩
theorem witness_DecimalFlagIsNotApplied :
    ((Instr.adcImm 0x09).op = .adc (.immediate 0x09) ∧ exec (.adcImm 0x09) ready = .next (adc (.immediate 0x09) ready)) ∧
    (Instr.sbcImm 0x09).op = .sbc (.immediate 0x09) ∧ exec (.sbcImm 0x09) ready = .next (sbc (.immediate 0x09) ready) :=
  ⟨⟨rfl, rfl⟩, rfl, rfl⟩
theorem witness_LogicalOperations :
    (Instr.andImm 0x0F).op = .and (.immediate 0x0F) ∧ (Instr.oraZp 0x10).op = .ora (.memory (.zeroPage 0x10)) ∧
      (Instr.eorIndX 0x10).op = .eor (.memory (.indirectX 0x10)) ∧ (Instr.bitAbs 0x2002).op = .bit (.absolute 0x2002) :=
  ⟨rfl, rfl, rfl, rfl⟩
theorem witness_MemoryReadModifyWrites :
    (Instr.aslZp 0x10).op = .asl (.memory (.zeroPage 0x10)) ∧ (Instr.lsrZpX 0xFF).op = .lsr (.memory (.zeroPageX 0xFF)) ∧
    (Instr.rolAbs 0x2007).op = .rol (.memory (.absolute 0x2007)) ∧
    (Instr.rorAbsX 0xFFFF).op = .ror (.memory (.absoluteX 0xFFFF)) ∧
    (Instr.incZp 0x10).op = .inc (.zeroPage 0x10) ∧ (Instr.decAbs 0x2007).op = .dec (.absolute 0x2007) :=
  ⟨rfl, rfl, rfl, rfl, rfl, rfl⟩
theorem witness_LoadsSetRegisterAndFlags :
    (Instr.ldaImm 0x07).op = .lda (.immediate 0x07) ∧ (Instr.ldxZpY 0xFF).op = .ldx (.memory (.zeroPageY 0xFF)) ∧
      (Instr.ldyAbsX 0xFFFF).op = .ldy (.memory (.absoluteX 0xFFFF)) := ⟨rfl, rfl, rfl⟩
theorem witness_StoresGoWhereTheDecoderSends :
    ((Instr.staZp 0x10).op = .sta (.zeroPage 0x10) ∧ (Instr.stxZpY 0x10).op = .stx (.zeroPageY 0x10) ∧
      (Instr.styAbs 0x8000).op = .sty (.absolute 0x8000)) ∧
    (ready.cfg.busMode = .nes ∧ plainWrite ready.cfg 0x1FFF = true ∧ plainWrite ready.cfg 0x4015 = true ∧
      plainWrite ready.cfg 0x8000 = true) ∧
    (let ea := (effAddr (.absolute 0x2000) ready).1
     0x2000 ≤ ea.toNat ∧ ea.toNat ≤ 0x3FFF ∧ plainWrite ready.cfg ea = false) ∧
    (let ea := (effAddr (.absolute 0x3FFF) ready).1
     0x2000 ≤ ea.toNat ∧ ea.toNat ≤ 0x3FFF ∧ plainWrite ready.cfg ea = false) ∧
    ((effAddr (.absolute 0x4014) ready).1 = 0x4014 ∧ plainWrite ready.cfg 0x4014 = false) ∧
    ((effAddr (.absolute 0x4016) ready).1 = 0x4016 ∧ plainWrite ready.cfg 0x4016 = false) ∧
    (let s := { ready with cfg := { ready.cfg with romWrites := .ignore } }
     0x8000 ≤ (effAddr (.absolute 0x8000) s).1.toNat ∧ s.cfg.romWrites = .ignore ∧ plainWrite s.cfg 0x8000 = false) := by decide
/-- A subroutine or a handler at work: the state with other registers and flags, a byte of RAM and a device register written. -/
def meddled (t : State) : State :=
  busWrite 0x2000 0x80 (busWrite 0x0010 0x55 { t with cpu := { t.cpu with a := 1, x := 2, y := 3, pc := 0x9005, p := Flags.loadByte 0xFF } })

theorem witness_ReturnFollowsTheCall :
    let t := (push16 (ready.cpu.pc - 1) ready).setPc 0x9000
    exec (.jsr 0x9000) ready = .next t ∧ (meddled t).cpu.s = t.cpu.s ∧
      ∀ k, k < 2 →
        (meddled t).mem.read (0x100 + (ready.cpu.s.toNat + (256 - k)) % 256) =
          t.mem.read (0x100 + (ready.cpu.s.toNat + (256 - k)) % 256) :=
  ⟨rfl, rfl, by decide⟩
theorem witness_InterruptEntries :
    ready.fault = none ∧ ready.cpu.p.i = true ∧ ({ ready with cpu := { ready.cpu with p := Flags.loadByte 0x20 } }).cpu.p.i = false :=
  ⟨rfl, rfl, rfl⟩
/-- A handler at work after an entry made in `ready` keeps S and the three stacked bytes. -/
abbrev handlerKeeps (s t : State) : Prop :=
  (meddled t).cpu.s = t.cpu.s ∧
    ∀ k, k < 3 →
      (meddled t).mem.read (0x100 + (s.cpu.s.toNat + (256 - k)) % 256) = t.mem.read (0x100 + (s.cpu.s.toNat + (256 - k)) % 256)

theorem witness_ReturnFromInterruptUndoesTheEntry :
    (ready.fault = none ∧ handlerKeeps ready (nmiEntry ready)) ∧
    (let s := { ready with cpu := { ready.cpu with p := Flags.loadByte 0x20 } }
     s.fault = none ∧ s.cpu.p.i = false ∧ handlerKeeps s (irqEntry s)) ∧
    ∃ t, exec .brk ready = .next t ∧ handlerKeeps ready t :=
  ⟨⟨rfl, rfl, by decide⟩, ⟨rfl, rfl, rfl, by decide⟩, _, rfl, rfl, by decide⟩
theorem witness_ResetReinitializesTheProcessor : ready.fault = none := rfl
theorem witness_RamMirrorsNameOneByte :
    ready.cfg.busMode = .nes ∧ (0 : Nat) < 0x800 ∧ (0x7FF : Nat) < 0x800 ∧ (0 : Nat) < 4 ∧ (3 : Nat) < 4 := by decide
theorem witness_GraphicsWindowMirrors :
    ready.cfg.busMode = .nes ∧ (0x2000 ≤ (0x2000#16).toNat ∧ (0x2000#16).toNat ≤ 0x3FFF) ∧
      (0x2000 ≤ (0x3FFF#16).toNat ∧ (0x3FFF#16).toNat ≤ 0x3FFF) := by decide
theorem witness_CartridgeWindow :
    ready.cfg.busMode = .nes ∧ 0x8000 ≤ (0x8000#16).toNat ∧ 0x8000 ≤ (0xFFFF#16).toNat := by decide
theorem witness_PlainStorage :
    (0x4000 ≤ (0x4000#16).toNat ∧ (0x7FFF#16).toNat ≤ 0x7FFF ∧ 0x4000#16 ≠ 0x4014#16 ∧ 0x7FFF#16 ≠ 0x4016#16) ∧
      (start 0 0 0 0 0 [] []).cfg.busMode = .flat := by decide
theorem witness_InputStrobeReadsTheButtons :
    ready.cfg.busMode = .nes ∧ (0x01#8).getLsbD 0 = true ∧ (0xFF#8).getLsbD 0 = true ∧ (0x00#8).getLsbD 0 = false ∧
      (0xFE#8).getLsbD 0 = false ∧ (7 : Nat) < 8 ∧ 8 ≤ (8 : Nat) := by decide
theorem witness_SpriteDmaCopiesAPage : ready.cfg.busMode = .nes ∧ (255 : Nat) < 256 := by decide
theorem witness_StatusAndWriteOnlyReads : ready.cfg.busMode = .nes ∧ 0 ∈ [0, 1, 3, 4, 5, 6] ∧ 6 ∈ [0, 1, 3, 4, 5, 6] := by decide
theorem witness_RegisterWritesAndAddressLatch :
    (ready.cfg.busMode = .nes ∧ ready.gfx.w = false) ∧ ({ ready with gfx := { ready.gfx with w := true } }).gfx.w = true := by decide
theorem witness_DataRegister :
    ready.cfg.busMode = .nes ∧ 0x3F00 ≤ (BitVec.ofNat 16 ((0x3F00#16).toNat % 0x4000) : Word).toNat ∧
      0x3F00 ≤ (BitVec.ofNat 16 ((0xFFFF#16).toNat % 0x4000) : Word).toNat ∧
      (BitVec.ofNat 16 ((0x3EFF#16).toNat % 0x4000) : Word).toNat < 0x3F00 ∧
      (BitVec.ofNat 16 ((0x4000#16).toNat % 0x4000) : Word).toNat < 0x3F00 := by decide
theorem witness_GraphicsNormalization :
    (0x1FFF#16).toNat % 0x4000 < 0x2000 ∧ (0x2000 ≤ (0x2000#16).toNat % 0x4000 ∧ (0x2FFF#16).toNat % 0x4000 < 0x3000) ∧
      (0x3000 ≤ (0x3000#16).toNat % 0x4000 ∧ (0x3EFF#16).toNat % 0x4000 < 0x3F00) ∧ 0x3F00 ≤ (0x3F00#16).toNat % 0x4000 ∧
      0x3F00 ≤ (0x7FFF#16).toNat % 0x4000 := by decide
theorem witness_GraphicsReadAfterWrite :
    (vnorm .horizontal 0x2400).toNat = (vnorm .horizontal 0x2000).toNat ∧
    ((vnorm .horizontal 0x3F00).toNat = 0x3F00 ∧ (vnorm .horizontal 0x3FEC).toNat = 0x3F0C) ∧
    (vnorm .horizontal 0x3F10).toNat ≠ (vnorm .horizontal 0x3F00).toNat ∧
    ¬ ((vnorm .horizontal 0x3F10).toNat = 0x3F00 ∨ (vnorm .horizontal 0x3F10).toNat = 0x3F04 ∨
      (vnorm .horizontal 0x3F10).toNat = 0x3F08 ∨ (vnorm .horizontal 0x3F10).toNat = 0x3F0C) := by decide
theorem witness_AdvanceCountsAndSplits :
    let s := { ready with gfx := { ready.gfx with scanline := 261, dot := 340 } }
    s.fault = none ∧ s.gfx.scanline < 262 ∧ s.gfx.dot + 0 < 341 ∧ 341 ≤ s.gfx.dot + 1 ∧ s.gfx.dot + 341 < 682 := by decide
theorem witness_ScanlineEvents : 2 ∉ [0, 1, 241, 261] ∧ 240 ∉ [0, 1, 241, 261] ∧ 260 ∉ [0, 1, 241, 261] := by decide
theorem witness_ComposerSnapshotAndPixels : (1023 : Nat) < 1024 ∧ (15 : Nat) < 16 ∧ (29 : Nat) < 30 ∧ (31 : Nat) < 32 ∧ (7 : Nat) < 8 := by
  decide

/-- An image of one program unit and no tile bitmaps, vertical, without trainer. -/
def smallImage : List Byte := [0x4E, 0x45, 0x53, 0x1A, 0x01, 0x00, 0x01, 0x00] ++ List.replicate 16392 0x00

/-- Its configuration (R403, R404). -/
def smallCartridge : Cartridge := { prgUnits := .one, chrUnits := .zero, ntMirror := .vertical, trainer := false }

theorem smallImage_length : smallImage.length = 16400 := by
  rw [smallImage, List.length_append, List.length_replicate]
  rfl

theorem test_load_small_image : loadImage smallImage = .ok smallCartridge := by
  unfold loadImage
  simp only [smallImage_length]
  rfl
theorem witness_LoaderChecks :
    (¬ 16 ≤ ([] : List Byte).length) ∧
    (let image : List Byte := [0x4E, 0x45, 0x53, 0x1A, 0x03, 0x01, 0x00, 0x00] ++ List.replicate 8 0
     16 ≤ image.length ∧ (image.getD 4 0).toNat = 3) ∧
    (let image : List Byte := [0x4E, 0x45, 0x53, 0x1A, 0x02, 0x01, 0x00, 0x00] ++ List.replicate 8 0
     16 ≤ image.length ∧ (image.getD 4 0).toNat ≤ 2 ∧ (image.getD 5 0).toNat ≤ 1 ∧ ¬ 16 + 16384 * 2 + 8192 ≤ image.length) ∧
    16 + 512 * 0 + 16384 * 1 + 8192 * 0 ≤ smallImage.length :=
  ⟨by decide, by decide, by decide, by rw [smallImage_length]⟩
theorem witness_PowerOnLaysOutTheImage :
    loadImage [] = .error (.unsupportedFormat []) ∧ loadImage smallImage = .ok smallCartridge := ⟨rfl, test_load_small_image⟩
theorem witness_EveryStepKeepsTheInvariant : State.reset.Inv ∧ ∃ t, step State.reset = .next t := by
  refine ⟨by decide, ?_⟩
  exact ⟨_, rfl⟩
theorem witness_ConfigurationIsFixed : Reachable State.reset State.reset ∧ ∃ t, Reachable State.reset t ∧ step State.reset = .next t :=
  ⟨.here, _, .next .here rfl, rfl⟩

end Sys2Proof.Tests
end

section
/-! What accesses, instructions and steps keep (spec 10_state): the configuration (R41) and the machine's invariant (R33, R46, R50,
20_memory R81). -/

namespace Sys2Proof.Machine

/-! ### The contents part of the invariant

The clauses of `State.Inv` fall into two parts: what the arrays, the palette cells and the live B hold, which accesses and register
writes can touch, and the raster and cycle counters, which they leave alone. -/

/-- The arrays of the graphics unit are canonical and its entry-0 palette cells are equal (R42, R43, R51, R52, R81). -/
def Gfx.ContentsOk (g : Gfx) : Prop := g.arraysOk ∧ g.paletteOk

/-- The clauses of the invariant about contents: the arrays, the entry-0 palette cells and the live B. -/
def State.ContentsOk (s : State) : Prop :=
  (s.mem.wf ∧ s.mem.within 65536) ∧ s.gfx.ContentsOk ∧ s.cpu.p.b = false

/-- The clauses of the invariant about counters that hold during `advance` too, where `dot` may pass 340. -/
def State.CountersOk (s : State) : Prop := s.gfx.scanline < 262 ∧ s.gfx.vblankOk ∧ s.lastCycles ≤ s.cycles

theorem State.inv_iff (s : State) : s.Inv ↔ s.ContentsOk ∧ s.CountersOk ∧ s.gfx.dot < 341 := by
  unfold State.ContentsOk State.CountersOk Gfx.ContentsOk
  constructor
  · rintro ⟨hm, ha, ⟨hsl, hd⟩, hv, hp, hc, hb⟩
    exact ⟨⟨hm, ⟨ha, hp⟩, hb⟩, ⟨hsl, hv, hc⟩, hd⟩
  · rintro ⟨⟨hm, ⟨ha, hp⟩, hb⟩, ⟨hsl, hv, hc⟩, hd⟩
    exact ⟨hm, ha, ⟨hsl, hd⟩, hv, hp, hc, hb⟩

/-! ### Graphics memory -/

/-- Nametable mirroring stays inside graphics memory: the mirrored modes keep only an offset into 0x2000-0x2FFF (R83). -/
theorem ntMirrored_lt (mode : NtMirror) (a : Word) (h : a.toNat < 0x4000) : (ntMirrored mode a).toNat < 0x4000 := by
  cases mode
  case horizontal =>
    have hi : (a &&& 0x0800#16).toNat ≤ 0x800 := Nat.and_le_right
    have lo : (a &&& 0x03FF#16).toNat ≤ 0x3FF := Nat.and_le_right
    simp only [ntMirrored, BitVec.toNat_add, BitVec.toNat_ushiftRight, Nat.shiftRight_eq_div_pow,
      show (0x2000#16).toNat = 0x2000 from rfl]
    omega
  case vertical =>
    have lo : (a &&& 0x07FF#16).toNat ≤ 0x7FF := Nat.and_le_right
    simp only [ntMirrored, BitVec.toNat_add, show (0x2000#16).toNat = 0x2000 from rfl]
    omega
  case fourScreen => exact h

theorem foldNtMirror_lt (a : Word) (h : a.toNat < 0x4000) : (foldNtMirror a).toNat < 0x4000 := by
  unfold foldNtMirror
  split
  · next hr =>
    have hlo : (0x1000#16).toNat ≤ a.toNat := Nat.le_trans (by decide) hr.1
    rw [BitVec.toNat_sub_of_le hlo]
    omega
  · exact h

/-- Normalization lands inside graphics memory (R42, R82). -/
theorem vnorm_lt (mode : NtMirror) (a : Word) : (vnorm mode a).toNat < 16384 := by
  have hmask : (a &&& 0x3FFF#16).toNat < 0x4000 := by
    rw [and_mask_toNat a _ 14 rfl]
    omega
  have hfold := foldNtMirror_lt _ hmask
  unfold vnorm
  dsimp only
  split
  · have lo : (foldNtMirror (a &&& 0x3FFF#16) &&& 0x001F#16).toNat ≤ 0x1F := Nat.and_le_right
    rw [BitVec.toNat_add, show (0x3F00#16).toNat = 0x3F00 from rfl]
    omega
  · split
    · exact ntMirrored_lt mode _ hfold
    · exact hfold

theorem writePaletteZero_wf (m : Memory) (v : Byte) (h : m.wf) : (writePaletteZero m v).wf :=
  Memory.wf_write _ _ _ (Memory.wf_write _ _ _ (Memory.wf_write _ _ _ (Memory.wf_write _ _ _ h)))

theorem writePaletteZero_within (m : Memory) (v : Byte) (h : m.within 16384) : (writePaletteZero m v).within 16384 :=
  Memory.within_write _ _ _ _ (by decide) (Memory.within_write _ _ _ _ (by decide)
    (Memory.within_write _ _ _ _ (by decide) (Memory.within_write _ _ _ _ (by decide) h)))

/-- Graphics memory after a write: still canonical and within its size. -/
theorem Gfx.vwrite_arrayOk (mode : NtMirror) (g : Gfx) (a : Word) (v : Byte) (h : g.vram.wf ∧ g.vram.within 16384) :
    (g.vwrite mode a v).vram.wf ∧ (g.vwrite mode a v).vram.within 16384 := by
  obtain ⟨hwf, hin⟩ := h
  unfold Gfx.vwrite
  dsimp only
  split
  · exact ⟨writePaletteZero_wf _ _ hwf, writePaletteZero_within _ _ hin⟩
  · exact ⟨Memory.wf_write _ _ _ hwf, Memory.within_write _ _ _ _ (vnorm_lt mode a) hin⟩

/-- A write to an entry-0 cell is stored in all four, any other write in none of them (R81). -/
theorem Gfx.vwrite_paletteOk (mode : NtMirror) (g : Gfx) (a : Word) (v : Byte) (h : g.paletteOk) :
    (g.vwrite mode a v).paletteOk := by
  unfold Gfx.paletteOk
  simp only [Gfx.vwrite_read]
  split
  · simp [writePaletteZero_read]
  · next hz =>
    rw [isPaletteZero_iff] at hz
    simp only [not_or] at hz
    obtain ⟨h0, h4, h8, hC⟩ := hz
    rw [if_neg h0, if_neg h4, if_neg h8, if_neg hC]
    exact h

theorem Gfx.vwrite_contentsOk (mode : NtMirror) (g : Gfx) (a : Word) (v : Byte) (h : g.ContentsOk) :
    (g.vwrite mode a v).ContentsOk := by
  obtain ⟨⟨hvram, hrest⟩, hpal⟩ := h
  exact ⟨⟨Gfx.vwrite_arrayOk mode g a v hvram, hrest⟩, Gfx.vwrite_paletteOk mode g a v hpal⟩

/-- Of the register writes only the data register's reaches an array (R335). -/
theorem Gfx.regWrite_contentsOk (mode : NtMirror) (g : Gfx) (r : BitVec 3) (v : Byte) (h : g.ContentsOk) :
    (g.regWrite mode r v).ContentsOk := by
  unfold Gfx.regWrite
  split
  case h_7 =>
    unfold Gfx.addrWrite
    split <;> exact h
  case h_8 => exact Gfx.vwrite_contentsOk mode g g.ptr v h
  all_goals exact h

theorem Gfx.loadOam_contentsOk (g : Gfx) (page : Nat → Byte) (h : g.ContentsOk) : (g.loadOam page).ContentsOk := by
  obtain ⟨⟨hvram, -, hrest⟩, hpal⟩ := h
  exact ⟨⟨hvram, ⟨Memory.wf_ofFn _ _, Memory.within_ofFn _ _⟩, hrest⟩, hpal⟩

theorem Gfx.snapshot_contentsOk (mode : NtMirror) (g : Gfx) (h : g.ContentsOk) : (g.snapshot mode).ContentsOk := by
  obtain ⟨⟨hvram, hoam, -, -, hframe⟩, hpal⟩ := h
  exact ⟨⟨hvram, hoam, ⟨Memory.wf_ofFn _ _, Memory.within_ofFn _ _⟩, ⟨Memory.wf_ofFn _ _, Memory.within_ofFn _ _⟩, hframe⟩, hpal⟩

theorem Gfx.compose_contentsOk (mode : NtMirror) (g : Gfx) (h : g.ContentsOk) : (g.compose mode).ContentsOk := by
  obtain ⟨⟨hvram, hoam, hnt, hsnap, -⟩, hpal⟩ := h
  exact ⟨⟨hvram, hoam, hnt, hsnap, Memory.wf_ofFn _ _, Memory.within_ofFn _ _⟩, hpal⟩

/-! ### Bus writes -/

theorem busIndex_lt (cfg : Config) (a : Word) : busIndex cfg a < 65536 := by
  unfold busIndex
  split
  · exact a.isLt
  · exact (norm cfg a).isLt

theorem State.storeByte_contentsOk (s : State) (a : Word) (v : Byte) (h : s.ContentsOk) : (s.storeByte a v).ContentsOk := by
  obtain ⟨⟨hwf, hin⟩, hrest⟩ := h
  exact ⟨⟨Memory.wf_write _ _ _ hwf, Memory.within_write _ _ _ _ (busIndex_lt s.cfg a) hin⟩, hrest⟩

theorem State.setGfx_contentsOk (s : State) (g : Gfx) (h : s.ContentsOk) (hg : s.gfx.ContentsOk → g.ContentsOk) :
    (s.setGfx g).ContentsOk := by
  obtain ⟨hmem, hgfx, hb⟩ := h
  exact ⟨hmem, hg hgfx, hb⟩

/-- A bus write keeps the contents well formed, whichever unit answers it (R61). -/
theorem busWrite_contentsOk (a : Word) (v : Byte) (s : State) (h : s.ContentsOk) : (busWrite a v s).ContentsOk := by
  unfold busWrite
  split
  · exact State.storeByte_contentsOk s a v h
  split
  · exact State.setGfx_contentsOk s _ h (Gfx.regWrite_contentsOk _ _ _ v)
  split
  · exact State.setGfx_contentsOk s _ h (Gfx.loadOam_contentsOk _ _)
  split
  · unfold inputWrite
    split <;> exact h
  split
  · exact h
  · exact State.storeByte_contentsOk s a v h

/-! ### What an instruction can change -/

/-- `s` with the pieces blanked that register writes and bus accesses may change. Two states equal under it agree on the counters, the
halt bit, the fault record, the configuration and the composer's arrays. -/
def State.exceptAccesses (s : State) : State := { s.exceptWrites with cpu := State.reset.cpu }

/-- `t` comes from `s` by register writes and bus accesses: nothing else has changed, and well-formed contents stay so. -/
structure AccessesOnly (s t : State) : Prop where
  frame : t.exceptAccesses = s.exceptAccesses
  contents : s.ContentsOk → t.ContentsOk

namespace AccessesOnly

theorem refl (s : State) : AccessesOnly s s := ⟨rfl, id⟩

theorem trans {s t u : State} (h : AccessesOnly s t) (k : AccessesOnly t u) : AccessesOnly s u :=
  ⟨k.frame.trans h.frame, fun hs => k.contents (h.contents hs)⟩

theorem setA (s : State) (v : Byte) : AccessesOnly s (s.setA v) := ⟨rfl, id⟩
theorem setX (s : State) (v : Byte) : AccessesOnly s (s.setX v) := ⟨rfl, id⟩
theorem setY (s : State) (v : Byte) : AccessesOnly s (s.setY v) := ⟨rfl, id⟩
theorem setS (s : State) (v : Byte) : AccessesOnly s (s.setS v) := ⟨rfl, id⟩
theorem setPc (s : State) (w : Word) : AccessesOnly s (s.setPc w) := ⟨rfl, id⟩

/-- A write of the flags that does not set B. -/
theorem setP (s : State) (p : Flags) (hb : s.cpu.p.b = false → p.b = false) : AccessesOnly s (s.setP p) :=
  ⟨rfl, fun ⟨hmem, hgfx, hs⟩ => ⟨hmem, hgfx, hb hs⟩⟩

/-- What a read may change is none of the contents. -/
theorem of_exceptReads {s t : State} (h : t.exceptReads = s.exceptReads) : AccessesOnly s t where
  frame := congrArg (fun q => { q with cpu := State.reset.cpu }) (State.exceptWrites_of_exceptReads h)
  contents hs := by
    show t.exceptReads.ContentsOk
    rw [h]
    exact hs

theorem write (a : Word) (v : Byte) (s : State) : AccessesOnly s (busWrite a v s) where
  frame := congrArg (fun q => { q with cpu := State.reset.cpu }) (busWrite_exceptWrites a v s)
  contents := busWrite_contentsOk a v s

section
variable {s t : State} (h : AccessesOnly s t)
include h

theorem cfg_eq : t.cfg = s.cfg := congrArg (fun q => q.cfg) h.frame
theorem fault_eq : t.fault = s.fault := congrArg (fun q => q.fault) h.frame
theorem cycles_eq : t.cycles = s.cycles := congrArg (fun q => q.cycles) h.frame
theorem lastCycles_eq : t.lastCycles = s.lastCycles := congrArg (fun q => q.lastCycles) h.frame
theorem scanline_eq : t.gfx.scanline = s.gfx.scanline := congrArg (fun q => q.gfx.scanline) h.frame
theorem dot_eq : t.gfx.dot = s.gfx.dot := congrArg (fun q => q.gfx.dot) h.frame
theorem vblank_eq : t.gfx.vblank = s.gfx.vblank := congrArg (fun q => q.gfx.vblank) h.frame

theorem keepsInv (hs : s.Inv) : t.Inv := by
  rw [State.inv_iff] at hs ⊢
  unfold State.CountersOk Gfx.vblankOk at hs ⊢
  rw [h.scanline_eq, h.vblank_eq, h.lastCycles_eq, h.cycles_eq, h.dot_eq]
  exact ⟨h.contents hs.1, hs.2⟩

end

theorem read (a : Word) (s : State) : AccessesOnly s (busRead a s).2 := of_exceptReads (busRead_exceptReads a s)

theorem read16 (a : Word) (s : State) : AccessesOnly s (busRead16 a s).2 := of_exceptReads (busRead16_exceptReads a s)

theorem src (o : Src) (s : State) : AccessesOnly s (readSrc o s).2 := of_exceptReads (readSrc_exceptReads o s)

theorem mem (m : MemMode) (s : State) : AccessesOnly s (readMem m s).2 := of_exceptReads (readMem_exceptReads m s)

theorem push (v : Byte) (s : State) : AccessesOnly s (push v s) := (write _ v s).trans (setS _ _)

theorem push16 (w : Word) (s : State) : AccessesOnly s (push16 w s) := (push _ s).trans (push _ _)

theorem pull (s : State) : AccessesOnly s (pull s).2 := (setS s _).trans (read _ _)

theorem pull16 (s : State) : AccessesOnly s (pull16 s).2 := (pull s).trans (pull _)

/-- PLP and RTI keep B as it was (R33, R255, R272). -/
theorem pullStatus (s : State) : AccessesOnly s (pullStatus s) := (pull s).trans (setP _ _ id)

theorem interruptReturn (s : State) : AccessesOnly s (interruptReturn s) :=
  ((pullStatus s).trans (pull16 _)).trans (setPc _ _)

theorem setI (s : State) : AccessesOnly s (s.setP { s.cpu.p with i := true }) := setP s _ id

/-- The live B is unchanged by an entry; only the pushed copy has it set (R33, R310). -/
theorem interruptEntry (vec : Word) (brk : Bool) (s : State) : AccessesOnly s (interruptEntry vec brk s) := by
  have pushed := (push16 s.cpu.pc s).trans (push (pushedStatus s.cpu.p brk) _)
  exact (pushed.trans (setI _)).trans ((read16 vec _).trans (setPc _ _))

theorem storeTo (m : MemMode) (v : Byte) (s : State) : AccessesOnly s (storeTo m v s) :=
  (of_exceptReads (effAddr_exceptReads m s)).trans (write _ v _)

theorem rmwMem (m : MemMode) (f : Byte → Bool → Byte × Bool) (s : State) : AccessesOnly s (rmwMem m f s) :=
  ((mem m s).trans (write _ _ _)).trans (setP _ _ id)

theorem rmw (t : RmwTarget) (f : Byte → Bool → Byte × Bool) (s : State) : AccessesOnly s (rmw t f s) := by
  cases t with
  | accumulator => exact (setA s _).trans (setP _ _ id)
  | memory m => exact rmwMem m f s

theorem branch (sel : BitVec 2) (exp : Bool) (d : Byte) (s : State) : AccessesOnly s (branch sel exp d s) := by
  rw [branch_eq]
  exact setPc s _

theorem setANZ (v : Byte) (s : State) : AccessesOnly s (setANZ v s) := (setA s v).trans (setP _ _ id)
theorem setXNZ (v : Byte) (s : State) : AccessesOnly s (setXNZ v s) := (setX s v).trans (setP _ _ id)
theorem setYNZ (v : Byte) (s : State) : AccessesOnly s (setYNZ v s) := (setY s v).trans (setP _ _ id)
theorem addToA (m : Byte) (s : State) : AccessesOnly s (addToA m s) := (setA s _).trans (setP _ _ id)

/-- Every instruction is register writes and bus accesses, and none sets the live B (R33). -/
theorem runOp (o : Op) (s : State) : AccessesOnly s (runOp o s) := by
  cases o
  case adc o | sbc o => exact (src o s).trans (addToA _ _)
  case and o | ora o | eor o | lda o => exact (src o s).trans (setANZ _ _)
  case ldx o => exact (src o s).trans (setXNZ _ _)
  case ldy o => exact (src o s).trans (setYNZ _ _)
  case cmp o | cpx o | cpy o => exact (src o s).trans (setP _ _ id)
  case bit m => exact (mem m s).trans (setP _ _ id)
  case sta m | stx m | sty m => exact storeTo m _ s
  case inc m | dec m => exact rmwMem m _ s
  case asl t | lsr t | rol t | ror t => exact rmw t _ s
  case bpl d | bmi d | bvc d | bvs d | bcc d | bcs d | bne d | beq d => exact branch _ _ d s
  case jmp w => exact setPc s w
  case jmpIndirect w => exact (of_exceptReads (busRead16page_exceptReads w s)).trans (setPc _ _)
  case jsr w => exact (push16 _ s).trans (setPc _ w)
  case rts => exact (pull16 s).trans (setPc _ _)
  case rti => exact interruptReturn s
  case brk => exact (setPc s _).trans (interruptEntry irqVector true _)
  case pha | php => exact push _ s
  case pla => exact (pull s).trans (setANZ _ _)
  case plp => exact pullStatus s
  case clc | cld | cli | clv | sec | sed | sei => exact setP s _ id
  case tax | tsx | inx | dex => exact setXNZ _ s
  case tay | iny | dey => exact setYNZ _ s
  case txa | tya => exact setANZ _ s
  case txs => exact setS s _
  case nop => exact refl s

theorem fetch8 (s : State) : AccessesOnly s (fetch8 s).2 := (read _ s).trans (setPc _ _)

theorem fetch16 (s : State) : AccessesOnly s (fetch16 s).2 := (fetch8 s).trans (fetch8 _)

/-- A fetched instruction is one to three bus reads, each with PC moved on (R342). -/
theorem fetchInstr {s t : State} {op : Byte} {i : Instr} (h : fetchInstr s = .instr op i t) : AccessesOnly s t := by
  unfold Machine.fetchInstr at h
  dsimp only at h
  split at h
  · cases h
  · cases h
    exact fetch8 s
  · cases h
    exact (fetch8 s).trans (fetch8 _)
  · cases h
    exact (fetch8 s).trans (fetch16 _)

/-- A CPU reset writes registers, reads the vector and clears B (R400). -/
theorem resetCpu (s : State) : AccessesOnly s (resetCpu s) := by
  unfold Machine.resetCpu
  split
  · exact refl s
  · have registers := (((setA s 0x00#8).trans (setX _ 0x00#8)).trans (setY _ 0x00#8)).trans (setS _ 0xFD#8)
    exact (registers.trans (setP _ Flags.reset fun _ => rfl)).trans ((read16 resetVector _).trans (setPc _ _))

end AccessesOnly

/-! ### Interrupt entries and the timing FSM -/

@[simp] theorem addCycles_cycles (n : Nat) (s : State) : (addCycles n s).cycles = s.cycles + n := rfl
@[simp] theorem addCycles_cfg (n : Nat) (s : State) : (addCycles n s).cfg = s.cfg := rfl

theorem addCycles_contentsOk (n : Nat) (s : State) (h : s.ContentsOk) : (addCycles n s).ContentsOk := h

/-- Cycles may be added at any time: the orchestrator's copy only falls further behind. -/
theorem addCycles_keepsInv (n : Nat) (s : State) (h : s.Inv) : (addCycles n s).Inv := by
  rw [State.inv_iff] at h ⊢
  obtain ⟨hc, ⟨hsl, hv, hcyc⟩, hd⟩ := h
  exact ⟨hc, ⟨hsl, hv, Nat.le_trans hcyc (Nat.le_add_right _ _)⟩, hd⟩

/-- An NMI is an interrupt entry with its cycles, or nothing where the machine is faulted (R311). -/
theorem nmiEntry_cases (s : State) :
    nmiEntry s = s ∨ nmiEntry s = addCycles intCycles (interruptEntry nmiVector false s) := by
  unfold nmiEntry
  split
  · exact .inl rfl
  · exact .inr rfl

/-- An IRQ is an interrupt entry with its cycles, or nothing where the machine is faulted or I is set (R312). -/
theorem irqEntry_cases (s : State) :
    irqEntry s = s ∨ irqEntry s = addCycles intCycles (interruptEntry irqVector false s) := by
  unfold irqEntry
  split
  · exact .inl rfl
  · split
    · exact .inl rfl
    · exact .inr rfl

theorem nmiEntry_contentsOk (s : State) (h : s.ContentsOk) : (nmiEntry s).ContentsOk := by
  obtain he | he := nmiEntry_cases s <;> rw [he]
  · exact h
  · exact addCycles_contentsOk _ _ ((AccessesOnly.interruptEntry nmiVector false s).contents h)

theorem cycles_le_nmiEntry (s : State) : s.cycles ≤ (nmiEntry s).cycles := by
  obtain he | he := nmiEntry_cases s
  · rw [he]
  · rw [he, addCycles_cycles, (AccessesOnly.interruptEntry nmiVector false s).cycles_eq]
    exact Nat.le_add_right _ _

/-- The events of a scanline keep the contents well formed (R321). -/
theorem onScanline_contentsOk (line : Nat) (s : State) (h : s.ContentsOk) : (onScanline line s).ContentsOk := by
  unfold onScanline
  split
  case h_1 => exact State.setGfx_contentsOk s _ h (Gfx.snapshot_contentsOk _ _)
  case h_2 => exact State.setGfx_contentsOk s _ h (Gfx.compose_contentsOk _ _)
  case h_3 =>
    dsimp only
    split
    · exact nmiEntry_contentsOk _ h
    · exact h
  all_goals exact h

theorem cycles_le_onScanline (line : Nat) (s : State) : s.cycles ≤ (onScanline line s).cycles := by
  unfold onScanline
  split
  case h_3 =>
    dsimp only
    split
    · exact cycles_le_nmiEntry (s.setGfx { s.gfx with vblank := true }).countFrame
    · exact Nat.le_refl _
  all_goals exact Nat.le_refl _

theorem cycles_le_nextScanline (s : State) : s.cycles ≤ (nextScanline s).cycles :=
  cycles_le_onScanline ((s.gfx.scanline + 1) % 262)
    (s.setGfx { s.gfx with dot := s.gfx.dot - 341, scanline := (s.gfx.scanline + 1) % 262 })

/-- Vertical blank is set on entry to scanline 241, cleared on entry to 261, and no other event touches it (R321, R325). -/
theorem onScanline_vblank (line : Nat) (s : State) :
    (onScanline line s).gfx.vblank = if line = 241 then true else if line = 261 then false else s.gfx.vblank := by
  unfold onScanline
  split
  case h_3 =>
    dsimp only
    split
    · rw [(nmiEntry_frame _).1]
      rfl
    · rfl
  case h_5 h241 h261 => rw [if_neg h241, if_neg h261]
  all_goals rfl

/-- Entering the next scanline keeps `vblank` set exactly on scanlines 241 to 260 (R46, R325). -/
theorem nextScanline_vblankOk (s : State) (hs : s.gfx.scanline < 262) (h : s.gfx.vblankOk) : (nextScanline s).gfx.vblankOk := by
  unfold Gfx.vblankOk at h ⊢
  rw [(nextScanline_frame s).2.1]
  unfold nextScanline
  dsimp only
  rw [onScanline_vblank]
  split
  · next h241 => simp [h241]
  split
  · next h261 => simp [h261]
  · next h241 h261 =>
    show s.gfx.vblank = _
    rw [h, decide_eq_decide]
    omega

/-- One turn of the loop of `advance` keeps every clause of the invariant but the bound of `dot`. -/
theorem nextScanline_keeps (s : State) (hc : s.ContentsOk) (hk : s.CountersOk) :
    (nextScanline s).ContentsOk ∧ (nextScanline s).CountersOk := by
  obtain ⟨hsl, hv, hcyc⟩ := hk
  obtain ⟨-, hline, -, -, hlast⟩ := nextScanline_frame s
  refine ⟨onScanline_contentsOk _ _ hc, ?_, nextScanline_vblankOk s hsl hv, ?_⟩
  · rw [hline]
    omega
  · rw [hlast]
    exact Nat.le_trans hcyc (cycles_le_nextScanline s)

theorem scanlines_keep (k : Nat) (s : State) (hc : s.ContentsOk) (hk : s.CountersOk) :
    (scanlines k s).ContentsOk ∧ (scanlines k s).CountersOk := by
  induction k generalizing s with
  | zero => exact ⟨hc, hk⟩
  | succ k ih =>
    obtain ⟨hc', hk'⟩ := nextScanline_keeps s hc hk
    exact ih (nextScanline s) hc' hk'

/-- The loop of `advance` ends with fewer than 341 dots left (R50, R320). -/
theorem advance_keepsInv (n : Nat) (s : State) (h : s.Inv) : (advance n s).Inv := by
  unfold advance
  split
  · exact h
  · obtain ⟨hc, hk, -⟩ := (State.inv_iff s).mp h
    obtain ⟨hc', hk'⟩ := scanlines_keep ((s.gfx.dot + n) / 341) (s.setGfx { s.gfx with dot := s.gfx.dot + n }) hc hk
    refine (State.inv_iff _).mpr ⟨hc', hk', ?_⟩
    rw [(scanlines_frame _ _).1]
    show s.gfx.dot + n - 341 * ((s.gfx.dot + n) / 341) < 341
    omega

/-- Setting the orchestrator's copy to the cycle count keeps the invariant (R38). -/
theorem noteCycles_keepsInv (s : State) (h : s.Inv) : (s.setLastCycles s.cycles).Inv := by
  rw [State.inv_iff] at h ⊢
  obtain ⟨hc, ⟨hsl, hv, -⟩, hd⟩ := h
  exact ⟨hc, ⟨hsl, hv, Nat.le_refl _⟩, hd⟩

theorem catchUp_keepsInv (before : Nat) (s : State) (h : s.Inv) : (catchUp before s).Inv := by
  unfold catchUp
  split
  · exact advance_keepsInv _ _ (noteCycles_keepsInv s h)
  · exact noteCycles_keepsInv _ (advance_keepsInv _ _ (noteCycles_keepsInv s h))

theorem catchUp_cfg (before : Nat) (s : State) : (catchUp before s).cfg = s.cfg := by
  unfold catchUp
  split <;> exact (advance_frame _ _).2.1

/-! ### Host moves and steps -/

theorem hostMove_keepsInv (m : HostMove) (s : State) (h : s.Inv) : (hostMove m s).Inv := by
  have entry (vec : Word) : (addCycles intCycles (interruptEntry vec false s)).Inv :=
    addCycles_keepsInv _ _ ((AccessesOnly.interruptEntry vec false s).keepsInv h)
  cases m
  case reset => exact (AccessesOnly.resetCpu s).keepsInv h
  case nmi =>
    obtain he | he := nmiEntry_cases s <;> rw [hostMove, he]
    · exact h
    · exact entry nmiVector
  case irq =>
    obtain he | he := irqEntry_cases s <;> rw [hostMove, he]
    · exact h
    · exact entry irqVector
  all_goals exact h

theorem hostMove_cfg (m : HostMove) (s : State) : (hostMove m s).cfg = s.cfg := by
  cases m
  case reset => exact (AccessesOnly.resetCpu s).cfg_eq
  case nmi => exact (nmiEntry_frame s).2.2.1
  case irq =>
    obtain he | he := irqEntry_cases s <;> rw [hostMove, he]
    rw [addCycles_cfg]
    exact (AccessesOnly.interruptEntry irqVector false s).cfg_eq
  all_goals rfl

/-- What an orchestrator step of an unfaulted machine can do: nothing, enter the faulted state, or run one instruction with its base
cost and advance the graphics unit (R341, R342). -/
inductive OrchestratorEffect (s : State) : State → Prop where
  | idle : OrchestratorEffect s s
  | faulted {t : State} (h : fetchInstr s = .fatal t) : OrchestratorEffect s t
  | ran {op : Byte} {i : Instr} {u : State} (h : fetchInstr s = .instr op i u) :
      OrchestratorEffect s (catchUp s.cycles (addCycles (cycleTable op) (runOp i.op u)))

theorem orchestratorStep_effect {s t : State} (hf : s.fault = none) (h : orchestratorStep s = .next t) :
    OrchestratorEffect s t := by
  by_cases hh : s.halted = true
  · rw [orchestratorStep_halted s hh] at h
    cases h
    exact .idle
  rw [Bool.not_eq_true] at hh
  cases hi : fetchInstr s with
  | fatal u =>
    rw [orchestratorStep_fatal s u hh hi] at h
    cases h
    exact .faulted hi
  | instr op i u =>
    have hu : (runOp i.op u).fault = none :=
      ((AccessesOnly.fetchInstr hi).trans (AccessesOnly.runOp i.op u)).fault_eq.trans hf
    rw [orchestratorStep_instr s u op i hh hi hu] at h
    cases h
    exact .ran hi

/-- Only an unfaulted machine steps (R300). -/
theorem fault_none_of_step {s t : State} (h : step s = .next t) : s.fault = none := by
  cases hf : s.fault with
  | none => rfl
  | some f =>
    unfold step at h
    rw [hf] at h
    cases h

/-- All that a step can do, from the state that the consumed host move leaves: act as that move, where `stop` is no effect, or take an
orchestrator step (R341-R344). -/
theorem step_cases {s t : State} (h : step s = .next t) :
    ∃ l, (∃ m, t = hostMove m (s.setHostMoves l)) ∨ OrchestratorEffect (s.setHostMoves l) t := by
  have hf := fault_none_of_step h
  have orchestrator (l : List HostMove) (hl : orchestratorStep (s.setHostMoves l) = .next t) :
      OrchestratorEffect (s.setHostMoves l) t := orchestratorStep_effect (s := s.setHostMoves l) hf hl
  unfold step at h
  rw [hf] at h
  dsimp only at h
  split at h
  · exact ⟨s.hostMoves, .inr (orchestrator _ h)⟩
  · exact ⟨_, .inr (orchestrator _ h)⟩
  · exact ⟨s.hostMoves, .inl ⟨.stop, by cases h; rfl⟩⟩
  · exact ⟨_, .inl ⟨.reset, by cases h; rfl⟩⟩
  · exact ⟨_, .inl ⟨.nmi, by cases h; rfl⟩⟩
  · exact ⟨_, .inl ⟨.irq, by cases h; rfl⟩⟩
  · exact ⟨_, .inl ⟨.toggleHalt, by cases h; rfl⟩⟩

/-- The state that a decode fault leaves, but for the record, is the one the opcode fetch left (R300). -/
theorem fetchInstr_fatal_state {s t : State} (h : fetchInstr s = .fatal t) : ∃ f, t = (fetch8 s).2.setFault (some f) := by
  obtain ⟨k, -, ht⟩ := fetchInstr_fatal s t h
  exact ⟨_, ht⟩

theorem OrchestratorEffect.keepsInv {s t : State} (h : OrchestratorEffect s t) (hs : s.Inv) : t.Inv := by
  cases h with
  | idle => exact hs
  | faulted h =>
    obtain ⟨f, rfl⟩ := fetchInstr_fatal_state h
    exact (AccessesOnly.fetch8 s).keepsInv hs
  | @ran op i u h =>
    have hrun := ((AccessesOnly.fetchInstr h).trans (AccessesOnly.runOp i.op u)).keepsInv hs
    exact catchUp_keepsInv _ _ (addCycles_keepsInv _ _ hrun)

theorem OrchestratorEffect.cfg_eq {s t : State} (h : OrchestratorEffect s t) : t.cfg = s.cfg := by
  cases h with
  | idle => rfl
  | faulted h =>
    obtain ⟨f, rfl⟩ := fetchInstr_fatal_state h
    exact (AccessesOnly.fetch8 s).cfg_eq
  | @ran op i u h =>
    rw [catchUp_cfg, addCycles_cfg]
    exact ((AccessesOnly.fetchInstr h).trans (AccessesOnly.runOp i.op u)).cfg_eq

/-- Settles O59: a host move and each effect of an orchestrator step keep the invariant. -/
theorem everyStepKeepsTheInvariant : Obligations.EveryStepKeepsTheInvariant := by
  intro s t hs h
  obtain ⟨l, ⟨m, rfl⟩ | heffect⟩ := step_cases h
  · exact hostMove_keepsInv m _ hs
  · exact heffect.keepsInv hs

/-- No step changes the configuration (R41). -/
theorem step_cfg {s t : State} (h : step s = .next t) : t.cfg = s.cfg := by
  obtain ⟨l, ⟨m, rfl⟩ | heffect⟩ := step_cases h
  · exact hostMove_cfg m _
  · exact heffect.cfg_eq

/-- Settles O60, by induction on the run. -/
theorem configurationIsFixed : Obligations.ConfigurationIsFixed := by
  intro s t h
  induction h with
  | here => rfl
  | next _ hstep ih => exact (step_cfg hstep).trans ih

end Sys2Proof.Machine
end

section
/-! The registers an instruction leaves alone (spec 10_state R21-R25), arithmetic without the decimal flag (R34), and the state after
reset (R55). -/

namespace Sys2Proof.Machine

/-! ### The registers after each shared operation -/

@[simp] theorem addToA_cpu (m : Byte) (s : State) :
    (addToA m s).cpu = { s.cpu with a := addResult s.cpu.a m s.cpu.p.c, p := s.cpu.p.addCore s.cpu.a m } := rfl

@[simp] theorem setANZ_cpu (v : Byte) (s : State) : (setANZ v s).cpu = { s.cpu with a := v, p := s.cpu.p.setNZ v } := rfl

@[simp] theorem setXNZ_cpu (v : Byte) (s : State) : (setXNZ v s).cpu = { s.cpu with x := v, p := s.cpu.p.setNZ v } := rfl

@[simp] theorem setYNZ_cpu (v : Byte) (s : State) : (setYNZ v s).cpu = { s.cpu with y := v, p := s.cpu.p.setNZ v } := rfl

@[simp] theorem storeTo_cpu (m : MemMode) (v : Byte) (s : State) : (storeTo m v s).cpu = s.cpu := by
  unfold storeTo
  dsimp only
  rw [busWrite_cpu, effAddr_cpu]

@[simp] theorem push_cpu (v : Byte) (s : State) : (push v s).cpu = { s.cpu with s := s.cpu.s - 1 } := by
  rw [push_eq]
  rfl

@[simp] theorem push16_cpu (w : Word) (s : State) : (push16 w s).cpu = { s.cpu with s := s.cpu.s - 2 } := by
  rw [push16_eq]
  rfl

@[simp] theorem pull_cpu (s : State) : (pull s).2.cpu = { s.cpu with s := s.cpu.s + 1 } := by
  rw [pull_eq]
  rfl

@[simp] theorem pull16_cpu (s : State) : (pull16 s).2.cpu = { s.cpu with s := s.cpu.s + 2 } := by
  rw [pull16_eq]
  rfl

@[simp] theorem pullStatus_cpu (s : State) :
    (pullStatus s).cpu = { s.cpu with s := s.cpu.s + 1, p := s.cpu.p.pulled (pull s).1 } := by
  unfold pullStatus
  simp only [State.setP, pull_cpu]

/-- A return from an interrupt writes S, PC and the flags. -/
theorem interruptReturn_registers (s : State) :
    (interruptReturn s).cpu.a = s.cpu.a ∧ (interruptReturn s).cpu.x = s.cpu.x ∧ (interruptReturn s).cpu.y = s.cpu.y := by
  unfold interruptReturn
  simp

/-- An interrupt entry writes S, PC and the flags. -/
theorem interruptEntry_registers (vec : Word) (brk : Bool) (s : State) :
    (interruptEntry vec brk s).cpu.a = s.cpu.a ∧ (interruptEntry vec brk s).cpu.x = s.cpu.x ∧
      (interruptEntry vec brk s).cpu.y = s.cpu.y := by
  unfold interruptEntry
  simp

/-- The registers outside the lists of R21-R25 after an instruction, by mnemonic. -/
theorem runOp_registers (o : Op) (s : State) :
    (writesA o = false → (runOp o s).cpu.a = s.cpu.a) ∧ (writesX o = false → (runOp o s).cpu.x = s.cpu.x) ∧
    (writesY o = false → (runOp o s).cpu.y = s.cpu.y) ∧ (writesS o = false → (runOp o s).cpu.s = s.cpu.s) ∧
    (writesPc o = false → (runOp o s).cpu.pc = s.cpu.pc) := by
  cases o
  case adc o | sbc o => simp [runOp, writesA, adc, sbc]
  case and o | ora o | eor o | lda o => simp [runOp, writesA, andA, oraA, eorA, lda]
  case ldx o => simp [runOp, writesX, ldx]
  case ldy o => simp [runOp, writesY, ldy]
  case cmp o | cpx o | cpy o => simp [runOp, cmp, cpx, cpy]
  case bit m => simp [runOp, bitA]
  case sta m | stx m | sty m => simp [runOp]
  case inc m | dec m => simp [runOp, rmwMem_cpu]
  case asl t | lsr t | rol t | ror t =>
    cases t with
    | accumulator => simp [runOp, writesA, rmw, rmwAcc]
    | memory m => simp [runOp, rmw, rmwMem_cpu]
  case bpl d | bmi d | bvc d | bvs d | bcc d | bcs d | bne d | beq d =>
    simp only [runOp]
    rw [branch_eq]
    simp [writesPc]
  case jmp w | jmpIndirect w => simp [runOp, writesPc]
  case jsr w => simp [runOp, writesPc, writesS]
  case rts => simp [runOp, writesPc, writesS]
  case rti => simp [runOp, writesPc, writesS, interruptReturn_registers]
  case brk => simp [runOp, writesPc, writesS, interruptEntry_registers]
  case pha | php => simp [runOp, writesS]
  case pla => simp [runOp, writesA, writesS]
  case plp => simp [runOp, writesS]
  case clc | cld | cli | clv | sec | sed | sei => simp [runOp]
  case tax | tsx | inx | dex => simp [runOp, writesX]
  case tay | iny | dey => simp [runOp, writesY]
  case txa | tya => simp [runOp, writesA]
  case txs => simp [runOp, writesS]
  case nop => simp [runOp]

/-- Settles O15: every row runs its mnemonic (`exec_eq`), and none of them leaves its lists. -/
theorem registersOutsideTheListsAreKept : Obligations.RegistersOutsideTheListsAreKept := by
  intro i s t h
  rw [exec_eq] at h
  cases h
  exact runOp_registers i.op s

/-! ### Arithmetic and the decimal flag -/

/-- `s` with the decimal flag complemented. -/
def State.flipD (s : State) : State := s.setP { s.cpu.p with d := !s.cpu.p.d }

/-- A bus read neither reads nor writes the flags. -/
theorem busRead_setP (a : Word) (p : Flags) (s : State) : busRead a (s.setP p) = ((busRead a s).1, (busRead a s).2.setP p) := by
  unfold busRead
  show (if s.cfg.busMode = .flat then _ else _) = _
  split
  · rfl
  split
  · unfold gregRead
    split <;> rfl
  split
  · unfold inputRead
    dsimp only
    show ((_ : Byte), if s.input.capture then _ else _) = _
    split <;> rfl
  · rfl

theorem effAddr_setP (m : MemMode) (p : Flags) (s : State) : effAddr m (s.setP p) = ((effAddr m s).1, s.setP p) := by
  have haddr : (effAddr m (s.setP p)).1 = (effAddr m s).1 := by
    cases m
    case indirectX | indirectY =>
      simp only [effAddr, busRead16zp_eq]
      rfl
    all_goals rfl
  rw [← haddr]
  exact Prod.ext rfl (effAddr_snd m _)

/-- Reading an operand neither reads nor writes the flags. -/
theorem readSrc_setP (o : Src) (p : Flags) (s : State) : readSrc o (s.setP p) = ((readSrc o s).1, (readSrc o s).2.setP p) := by
  cases o with
  | immediate v => rfl
  | memory m =>
    unfold readSrc readMem
    dsimp only
    rw [effAddr_setP, busRead_setP, effAddr_snd]

theorem readSrc_flipD (o : Src) (s : State) : readSrc o s.flipD = ((readSrc o s).1, (readSrc o s).2.flipD) := by
  unfold State.flipD
  rw [readSrc_setP, readSrc_cpu]

/-- The add core does not read D and writes it back as it was (R170). -/
theorem addToA_flipD (m : Byte) (s : State) : addToA m s.flipD = (addToA m s).flipD := rfl

theorem adc_flipD (o : Src) (s : State) : adc o s.flipD = (adc o s).flipD := by
  unfold adc
  rw [readSrc_flipD]
  exact addToA_flipD _ _

theorem sbc_flipD (o : Src) (s : State) : sbc o s.flipD = (sbc o s).flipD := by
  unfold sbc
  rw [readSrc_flipD]
  exact addToA_flipD _ _

/-- Settles O25: the operand read and the add core both pass the complemented flag through. -/
theorem decimalFlagIsNotApplied : Obligations.DecimalFlagIsNotApplied := by
  intro i o s t hop h
  rw [exec_eq] at h
  cases h
  show exec i s.flipD = .next (runOp i.op s).flipD
  rw [exec_eq]
  obtain hop | hop := hop <;> rw [hop]
  · exact congrArg _ (adc_flipD o s)
  · exact congrArg _ (sbc_flipD o s)

/-! ### The state after reset -/

/-- Settles O41: the fixed values by evaluation, and the last clause because empty memory reads 0x0000 as its reset vector. -/
theorem resetStateValues : Obligations.ResetStateValues := by
  have hempty : ∀ k, Memory.read [] k = 0 := Memory.read_nil
  exact ⟨by decide, rfl, rfl, rfl, rfl, rfl, rfl, rfl, rfl, fun k => ⟨hempty k, hempty k, hempty k, hempty k⟩, by decide⟩

/-- Settles O58: the arrays are empty and the counters zero. -/
theorem resetStateMeetsTheInvariant : Obligations.ResetStateMeetsTheInvariant := by
  unfold Obligations.ResetStateMeetsTheInvariant
  decide

end Sys2Proof.Machine
end

section
/-! Where a bus access goes, and what it reads and stores: the RAM mirrors, the graphics window, the cartridge window, plain storage
(spec 20_memory R60-R67), the sprite DMA (R90) and the input latch (R88, R89). -/

namespace Sys2Proof.Machine

/-! ### Indexes of the backing store as numbers -/

/-- `Norm` (R62) on numbers. -/
def normIndex (cfg : Config) (a : Nat) : Nat :=
  if a < 0x2000 then a % 0x800
  else if a < 0x4000 then 0x2000 + a % 8
  else if 0x8000 ≤ a ∧ cfg.prgUnits = .one then 0x8000 + a % 0x4000
  else a

theorem norm_toNat (cfg : Config) (a : Word) : (norm cfg a).toNat = normIndex cfg a.toNat := by
  unfold normIndex
  split
  · next h => exact norm_ram cfg a h
  split
  · next h h' => exact norm_registers cfg a (by omega) h'
  split
  · next h => exact norm_cartridge_one cfg a h.1 h.2
  · next h2 h4 h8 =>
    rw [norm_high cfg a (by omega)]
    cases hp : cfg.prgUnits with
    | one => exact .inl (by simpa [hp] using h8)
    | two => exact .inr rfl

theorem busIndex_nes (cfg : Config) (a : Word) (h : cfg.busMode = .nes) : busIndex cfg a = normIndex cfg a.toNat := by
  unfold busIndex
  rw [h]
  exact norm_toNat cfg a

theorem busIndex_flat (cfg : Config) (a : Word) (h : cfg.busMode = .flat) : busIndex cfg a = a.toNat := by
  unfold busIndex
  rw [h]

/-- Between the register window and the cartridge window every address is its own index, in both modes. -/
theorem busIndex_self (cfg : Config) (a : Word) (h : 0x4000 ≤ a.toNat) (h' : a.toNat < 0x8000) : busIndex cfg a = a.toNat := by
  cases hm : cfg.busMode with
  | flat => exact busIndex_flat cfg a hm
  | nes =>
    rw [busIndex_nes cfg a hm]
    unfold normIndex
    rw [if_neg (by omega), if_neg (by omega), if_neg (by omega)]

/-- A mirror of a RAM byte has its index (R63). -/
theorem busIndex_ramMirror (cfg : Config) (a k : Nat) (h : cfg.busMode = .nes) (ha : a < 0x800) (hk : k < 4) :
    busIndex cfg (BitVec.ofNat 16 (a + k * 0x800)) = a := by
  rw [busIndex_nes cfg _ h, BitVec.toNat_ofNat]
  unfold normIndex
  rw [if_pos (by omega)]
  omega

theorem busIndex_cartridge (cfg : Config) (a : Word) (h : cfg.busMode = .nes) (ha : 0x8000 ≤ a.toNat) :
    busIndex cfg a = if cfg.prgUnits = .one then 0x8000 + a.toNat % 0x4000 else a.toNat := by
  rw [busIndex_nes cfg a h]
  unfold normIndex
  rw [if_neg (by omega), if_neg (by omega)]
  simp only [ha, true_and]

/-! ### Which accesses are plain -/

theorem plainRead_flat (cfg : Config) (a : Word) (h : cfg.busMode = .flat) : plainRead cfg a = true := by
  simp [plainRead, h]

theorem plainWrite_flat (cfg : Config) (a : Word) (h : cfg.busMode = .flat) : plainWrite cfg a = true := by
  simp [plainWrite, h]

/-- From 0x4000 up only 0x4016 is a device to read (R66, R67). -/
theorem plainRead_of_ge (cfg : Config) (a : Word) (h : 0x4000 ≤ a.toNat) (h16 : a ≠ 0x4016#16) : plainRead cfg a = true := by
  simp [plainRead, inGfxWindow_false_of_ge a h, h16]

/-- From 0x4000 up a write is a store but at the two devices and in a cartridge window that ignores writes (R61, R65). -/
theorem plainWrite_of_ge (cfg : Config) (a : Word) (h : 0x4000 ≤ a.toNat) (h14 : a ≠ 0x4014#16) (h16 : a ≠ 0x4016#16)
    (hrom : a.toNat < 0x8000 ∨ cfg.romWrites = .store) : plainWrite cfg a = true := by
  have hrom : a < 0x8000#16 ∨ cfg.romWrites = .store := by simpa [BitVec.lt_def] using hrom
  obtain hrom | hrom := hrom <;> simp [plainWrite, inGfxWindow_false_of_ge a h, h14, h16, hrom]

/-! ### The graphics window -/

theorem inGfxWindow_iff (a : Word) : inGfxWindow a = true ↔ 0x2000 ≤ a.toNat ∧ a.toNat ≤ 0x3FFF := by
  unfold inGfxWindow
  rw [decide_eq_true_iff, BitVec.le_def, BitVec.le_def]
  rfl

theorem gfxOffset_eq (a : Word) : gfxOffset a = BitVec.ofNat 3 (a.toNat % 8) := by
  apply BitVec.eq_of_toNat_eq
  unfold gfxOffset
  simp

section
variable (s : State) (a : Word) (v : Byte) (hm : s.cfg.busMode = .nes) (h : inGfxWindow a = true)
include hm h

theorem busRead_window : busRead a s = gregRead (gfxOffset a) s := by
  unfold busRead
  rw [hm, if_neg (by decide), if_pos h]

theorem busWrite_window : busWrite a v s = s.setGfx (s.gfx.regWrite s.cfg.ntMirror (gfxOffset a) v) := by
  unfold busWrite
  rw [hm, if_neg (by decide), if_pos h]

end

/-- Settles O43: both an address of the window and 0x2000 plus its low three bits select the register of those bits. -/
theorem graphicsWindowMirrors : Obligations.GraphicsWindowMirrors := by
  intro s a v hm hlo hhi r reg
  have hreg : reg.toNat = 0x2000 + a.toNat % 8 := by
    rw [BitVec.toNat_ofNat]
    omega
  have ha : inGfxWindow a = true := (inGfxWindow_iff a).mpr ⟨hlo, hhi⟩
  have hr : inGfxWindow reg = true := (inGfxWindow_iff reg).mpr (by omega)
  have oa : gfxOffset a = r := gfxOffset_eq a
  have oreg : gfxOffset reg = r := by
    rw [gfxOffset_eq, hreg]
    congr 1
    omega
  rw [busRead_window s a hm ha, busWrite_window s a v hm ha, busRead_window s reg hm hr, busWrite_window s reg v hm hr, oa, oreg]
  exact ⟨rfl, rfl, rfl, rfl, State.mem_of_exceptReads (gregRead_exceptReads r s), rfl⟩

/-! ### Plain storage and its mirrors -/

/-- Settles O42: every mirror lies below the window, where accesses are plain, and has the index of the byte. -/
theorem ramMirrorsNameOneByte : Obligations.RamMirrorsNameOneByte := by
  intro s a j k v hm ha hj hk
  have low (i : Nat) (hi : i < 4) : (BitVec.ofNat 16 (a + i * 0x800)).toNat < 0x2000 := by
    rw [BitVec.toNat_ofNat]
    omega
  dsimp only
  rw [busWrite_plain _ v s (plainWrite_low _ _ (low j hj)), busRead_plain _ _ (plainRead_low _ _ (low k hk)), storeByte_byteAt,
    State.storeByte, busIndex_ramMirror _ a j hm ha hj, busIndex_ramMirror _ a k hm ha hk, if_pos rfl]
  exact ⟨rfl, rfl⟩

/-- Settles O44: reads of the window are plain, and so are writes but where `romWrites` drops them. -/
theorem cartridgeWindow : Obligations.CartridgeWindow := by
  intro s a v hm ha index
  have hi : busIndex s.cfg a = index := busIndex_cartridge s.cfg a hm ha
  have device (d : Word) (hd : d.toNat < 0x8000) : a ≠ d := by
    rintro rfl
    omega
  constructor
  · rw [busRead_plain a s (plainRead_high _ a (by omega)), State.byteAt, hi]
  cases hr : s.cfg.romWrites with
  | store =>
    rw [busWrite_plain a v s (plainWrite_of_ge _ a (by omega) (device _ (by decide)) (device _ (by decide)) (.inr hr)),
      State.storeByte, hi]
    rfl
  | ignore =>
    unfold busWrite
    rw [hm, if_neg (by decide), if_neg (by rw [inGfxWindow_false_of_ge a (by omega)]; decide), if_neg (device _ (by decide)),
      if_neg (device _ (by decide)), if_pos ⟨BitVec.le_def.mpr ha, hr⟩]
    rfl

/-- Settles O45: in these ranges both accesses are plain and the index is the address itself. -/
theorem plainStorage : Obligations.PlainStorage := by
  intro s a v
  constructor
  · intro h
    have plain : plainRead s.cfg a = true ∧ plainWrite s.cfg a = true ∧ busIndex s.cfg a = a.toNat := by
      obtain hm | ⟨hlo, hhi, h14, h16⟩ := h
      · exact ⟨plainRead_flat _ a hm, plainWrite_flat _ a hm, busIndex_flat _ a hm⟩
      · exact ⟨plainRead_of_ge _ a hlo h16, plainWrite_of_ge _ a hlo h14 h16 (.inl (by omega)),
          busIndex_self _ a hlo (by omega)⟩
    obtain ⟨hread, hwrite, hi⟩ := plain
    rw [busRead_plain a s hread, busWrite_plain a v s hwrite, State.byteAt, State.storeByte, hi]
    exact ⟨rfl, rfl⟩
  · rw [busRead_plain _ s (plainRead_of_ge _ _ (by decide) (by decide)), State.byteAt, busIndex_self _ _ (by decide) (by decide)]
    rfl

/-! ### Sprite DMA -/

theorem busWrite_spriteDma (s : State) (v : Byte) (hm : s.cfg.busMode = .nes) : busWrite 0x4014 v s = spriteDma v s := by
  unfold busWrite
  rw [hm, if_neg (by decide), if_neg (by decide)]
  exact if_pos rfl

theorem spriteDma_oam (v : Byte) (s : State) :
    (spriteDma v s).gfx.oam =
      Memory.ofFn 256 fun i => s.mem.read (norm s.cfg (mkWord v (BitVec.ofNat 8 i))).toNat := rfl

/-- Settles O47: the copied page is read where `Norm` puts its addresses (`norm_toNat`). -/
theorem spriteDmaCopiesAPage : Obligations.SpriteDmaCopiesAPage := by
  intro s v hm
  dsimp only
  rw [busWrite_spriteDma s v hm]
  refine ⟨rfl, fun k hk => ?_, Memory.wf_ofFn _ _, Memory.within_ofFn _ _⟩
  have hbyte : (mkWord v (BitVec.ofNat 8 k)).toNat = 256 * v.toNat + k := by
    rw [mkWord_toNat, BitVec.toNat_ofNat]
    omega
  change (spriteDma v s).gfx.oam.read k = s.mem.read (normIndex s.cfg (256 * v.toNat + k))
  rw [spriteDma_oam, Memory.read_ofFn, if_pos hk, norm_toNat, hbyte]

/-! ### The input latch -/

/-- One shift of the input latch (R89): down by one, the fill bit from above. -/
def shiftLatch (fill : Bool) (b : Byte) : Byte := (b >>> 1) ||| (bitByte fill <<< 7)

theorem shiftLatch_eq (fill : Bool) (b : Byte) :
    shiftLatch fill b = BitVec.ofNat 8 (b.toNat / 2 + 128 * fill.toNat) := rorFn_fst b fill

theorem shiftLatch_getLsbD (fill : Bool) (b : Byte) (i : Nat) (hi : i < 8) :
    (shiftLatch fill b).getLsbD i = if i + 1 < 8 then b.getLsbD (i + 1) else fill := by
  unfold shiftLatch
  rw [BitVec.getLsbD_or, BitVec.getLsbD_ushiftRight, BitVec.getLsbD_shiftLeft]
  split
  · next h =>
    have h7 : i < 7 := by omega
    simp [h7, Nat.add_comm]
  · obtain rfl : i = 7 := by omega
    cases fill <;> simp [bitByte]

/-- The bits of the latch after `k` shifts: those of the captured byte from bit `k` up, then fill bits. -/
theorem shiftLatch_iterate_getLsbD (fill : Bool) (b : Byte) (k i : Nat) (hi : i < 8) :
    ((shiftLatch fill)^[k] b).getLsbD i = if i + k < 8 then b.getLsbD (i + k) else fill := by
  induction k generalizing i with
  | zero => rw [Function.iterate_zero, id_eq, if_pos (by omega), Nat.add_zero]
  | succ k ih =>
    rw [Function.iterate_succ_apply', shiftLatch_getLsbD _ _ _ hi]
    split
    · next h =>
      rw [ih (i + 1) h]
      simp only [Nat.add_assoc, Nat.add_comm 1 k]
    · rw [if_neg (by omega)]

theorem and_one_eq (b : Byte) : b &&& 1 = (BitVec.ofBool (b.getLsbD 0)).setWidth 8 := by
  apply BitVec.eq_of_toNat_eq
  rw [getLsbD0_eq, BitVec.toNat_and, show (1 : Byte).toNat = 1 from rfl, Nat.and_one_is_mod]
  obtain h | h := Nat.mod_two_eq_zero_or_one b.toNat <;> simp [h]

section
variable (s : State) (hm : s.cfg.busMode = .nes)
include hm

theorem busWrite_input (v : Byte) : busWrite 0x4016 v s = inputWrite v s := by
  unfold busWrite
  rw [hm, if_neg (by decide), if_neg (by decide), if_neg (by decide)]
  exact if_pos rfl

theorem busRead_input : busRead 0x4016 s = inputRead s := by
  unfold busRead
  rw [hm, if_neg (by decide), if_neg (by decide)]
  exact if_pos rfl

theorem busWrite_input_capture (v : Byte) (hv : v.getLsbD 0 = true) :
    busWrite 0x4016 v s = (s.setInput { capture := true, latch := Config.hostButtons s.draws }).countDraw := by
  rw [busWrite_input s hm, inputWrite, if_pos hv]

theorem busWrite_input_release (v : Byte) (hv : v.getLsbD 0 = false) :
    busWrite 0x4016 v s = s.setInput { s.input with capture := false } := by
  rw [busWrite_input s hm, inputWrite, hv]
  rfl

/-- A byte with bit 0 set and then one with it clear leave the captured byte in a latch that shifts. -/
theorem busWrite_input_strobe (v w : Byte) (hv : v.getLsbD 0 = true) (hw : w.getLsbD 0 = false) :
    busWrite 0x4016 w (busWrite 0x4016 v s) =
      s.countDraw.setInput { capture := false, latch := Config.hostButtons s.draws } := by
  rw [busWrite_input_capture s hm v hv]
  exact busWrite_input_release (s.setInput { capture := true, latch := Config.hostButtons s.draws }).countDraw hm w hw

/-- A read while not capturing gives bit 0 of the latch and shifts it (R89). -/
theorem busRead_input_released (b : Byte) :
    busRead 0x4016 (s.setInput { capture := false, latch := b }) =
      (0x40 ||| (b &&& 1), s.setInput { capture := false, latch := shiftLatch s.cfg.inputFill b }) :=
  busRead_input (s.setInput { capture := false, latch := b }) hm

theorem busRead_input_iterate (b : Byte) (k : Nat) :
    (fun t => (busRead 0x4016 t).2)^[k] (s.setInput { capture := false, latch := b }) =
      s.setInput { capture := false, latch := (shiftLatch s.cfg.inputFill)^[k] b } := by
  induction k with
  | zero => rfl
  | succ k ih => rw [Function.iterate_succ_apply', Function.iterate_succ_apply', ih, busRead_input_released s hm]

/-- The byte of the read after `k` reads while not capturing. -/
theorem busRead_input_after (b : Byte) (k : Nat) :
    (busRead 0x4016 ((fun t => (busRead 0x4016 t).2)^[k] (s.setInput { capture := false, latch := b }))).1 =
      0x40 ||| (BitVec.ofBool (if k < 8 then b.getLsbD k else s.cfg.inputFill)).setWidth 8 := by
  have bit := shiftLatch_iterate_getLsbD s.cfg.inputFill b k 0 (by decide)
  rw [Nat.zero_add] at bit
  rw [busRead_input_iterate s hm, busRead_input_released s hm, and_one_eq, bit]

end

/-- Settles O46: a strobe leaves the captured byte in the latch, and the `k`-th read sees it after `k` shifts. -/
theorem inputStrobeReadsTheButtons : Obligations.InputStrobeReadsTheButtons := by
  intro s v w hm
  dsimp only
  refine ⟨busWrite_input_capture s hm v, busWrite_input_release s hm v, ?_, fun hv hw => ?_⟩
  · rw [busRead_input s hm, ← shiftLatch_eq]
    rfl
  · rw [busWrite_input_strobe s hm v w hv hw]
    have read := busRead_input_after s.countDraw hm (Config.hostButtons s.draws)
    refine ⟨rfl, fun k hk => ?_, fun k hk => ?_⟩
    · rw [read, if_pos hk]
    · rw [read, if_neg (by omega)]
      rfl

end Sys2Proof.Machine
end

section
/-! The graphics unit's address space (spec 20_memory R80-R84): normalization as numbers, and memory read after written. -/

namespace Sys2Proof.Machine

/-! ### Normalization -/

/-- `NtMirror` (R83) on numbers. -/
def ntIndex (mode : NtMirror) (c : Nat) : Nat :=
  match mode with
  | .fourScreen => c
  | .vertical => 0x2000 + c % 0x800
  | .horizontal => 0x2000 + c % 0x1000 / 0x800 * 0x400 + c % 0x400

theorem ntMirrored_toNat (mode : NtMirror) (a : Word) : (ntMirrored mode a).toNat = ntIndex mode a.toNat := by
  cases mode with
  | fourScreen => rfl
  | vertical =>
    rw [ntMirrored, BitVec.toNat_add, and_mask_toNat a _ 11 rfl, show (0x2000#16).toNat = 0x2000 from rfl, ntIndex]
    omega
  | horizontal =>
    have bit11 : (a &&& 0x0800#16).toNat = a.toNat % 0x1000 / 0x800 * 0x800 := by
      rw [BitVec.toNat_and, show (0x0800#16).toNat = 2 ^ 11 from rfl, Nat.and_two_pow, Nat.toNat_testBit]
      omega
    rw [ntMirrored, BitVec.toNat_add, BitVec.toNat_add, BitVec.toNat_ushiftRight, bit11, and_mask_toNat a _ 10 rfl,
      show (0x2000#16).toNat = 0x2000 from rfl, Nat.shiftRight_eq_div_pow, ntIndex]
    omega

theorem foldNtMirror_toNat (a : Word) :
    (foldNtMirror a).toNat = if 0x3000 ≤ a.toNat ∧ a.toNat ≤ 0x3EFF then a.toNat - 0x1000 else a.toNat := by
  have hrange : (0x3000#16 ≤ a ∧ a ≤ 0x3EFF#16) ↔ (0x3000 ≤ a.toNat ∧ a.toNat ≤ 0x3EFF) := Iff.rfl
  unfold foldNtMirror
  simp only [hrange]
  split
  · next h => exact BitVec.toNat_sub_of_le (BitVec.le_def.mpr (Nat.le_trans (by decide) h.1))
  · rfl

/-- The address after the wrap at 0x4000 and the fold of 0x3000-0x3EFF (R82). -/
def foldedIndex (a : Word) : Nat :=
  if 0x3000 ≤ a.toNat % 0x4000 ∧ a.toNat % 0x4000 ≤ 0x3EFF then a.toNat % 0x4000 - 0x1000 else a.toNat % 0x4000

/-- `VNorm` (R82) on numbers. -/
theorem vnorm_toNat (mode : NtMirror) (a : Word) :
    (vnorm mode a).toNat =
      if 0x3F00 ≤ foldedIndex a then 0x3F00 + foldedIndex a % 0x20
      else if 0x2000 ≤ foldedIndex a then ntIndex mode (foldedIndex a)
      else foldedIndex a := by
  have hfold : (foldNtMirror (a &&& 0x3FFF#16)).toNat = foldedIndex a := by
    rw [foldNtMirror_toNat, and_mask_toNat a _ 14 rfl]
    rfl
  unfold vnorm
  dsimp only
  simp only [BitVec.le_def, hfold, show (0x3F00#16).toNat = 0x3F00 from rfl, show (0x2000#16).toNat = 0x2000 from rfl]
  rw [apply_ite BitVec.toNat, apply_ite BitVec.toNat, BitVec.toNat_add, and_mask_toNat _ _ 5 rfl, ntMirrored_toNat, hfold,
    show (0x3F00#16).toNat = 0x3F00 from rfl, Nat.mod_eq_of_lt (by omega)]
  rfl

/-- Settles O51: the four ranges are the branches of `vnorm_toNat`. -/
theorem graphicsNormalization : Obligations.GraphicsNormalization := by
  intro mode a b nt
  have hnt : nt = ntIndex mode := rfl
  have folded (h : 0x3000 ≤ b ∧ b ≤ 0x3EFF) : foldedIndex a = b - 0x1000 := if_pos h
  have kept (h : ¬ (0x3000 ≤ b ∧ b ≤ 0x3EFF)) : foldedIndex a = b := if_neg h
  rw [vnorm_toNat, hnt]
  refine ⟨fun h => ?_, fun h h' => ?_, fun h h' => ?_, fun h => ?_⟩
  · rw [kept (by omega), if_neg (by omega), if_neg (by omega)]
  · rw [kept (by omega), if_neg (by omega), if_pos h]
  · rw [folded (by omega), if_neg (by omega), if_pos (by omega)]
  · rw [kept (by omega), if_pos h]

/-! ### Read after write -/

/-- The entry-0 palette cells (R81, R84). -/
def isZeroCell (c : Nat) : Prop := c = 0x3F00 ∨ c = 0x3F04 ∨ c = 0x3F08 ∨ c = 0x3F0C

/-- Graphics memory after a write: the written cell gives the value, an entry-0 write all four, and every other index what it gave
before. -/
theorem Gfx.vwrite_read_cases (mode : NtMirror) (g : Gfx) (a : Word) (v : Byte) (k : Nat) :
    (k = (vnorm mode a).toNat ∨ (isZeroCell (vnorm mode a).toNat ∧ isZeroCell k) → (g.vwrite mode a v).vram.read k = v) ∧
    (k ≠ (vnorm mode a).toNat → ¬ (isZeroCell (vnorm mode a).toNat ∧ isZeroCell k) →
      (g.vwrite mode a v).vram.read k = g.vram.read k) := by
  rw [Gfx.vwrite_read]
  split
  · next hz =>
    have hcell : isZeroCell (vnorm mode a).toNat := (isPaletteZero_iff _).mp hz
    rw [writePaletteZero_read]
    refine ⟨fun h => if_pos ?_, fun _ h => if_neg fun hk => h ⟨hcell, hk⟩⟩
    obtain rfl | ⟨-, hk⟩ := h
    · exact hcell
    · exact hk
  · next hz =>
    have hcell : ¬ isZeroCell (vnorm mode a).toNat := fun h => hz ((isPaletteZero_iff _).mpr h)
    refine ⟨fun h => if_pos ?_, fun h _ => if_neg (Ne.symm h)⟩
    obtain rfl | ⟨h, -⟩ := h
    · rfl
    · exact absurd h hcell

/-- Settles O52: a read is one of graphics memory at the normalized index. -/
theorem graphicsReadAfterWrite : Obligations.GraphicsReadAfterWrite := by
  intro mode g a b v
  have stored := Gfx.vwrite_read_cases mode g a v
  exact ⟨rfl, rfl, fun k => (stored k).1, fun k => (stored k).2, fun h => (stored _).1 (.inl h),
    fun h h' => (stored _).1 (.inr ⟨h, h'⟩), fun h h' => (stored _).2 h h'⟩

end Sys2Proof.Machine
end

section
/-! What an instruction does on the bus: its data reads, then its stores. So memory outside the stores is kept (spec 20_memory R61), and
the devices are when no access reaches one (R66, R67). -/

namespace Sys2Proof.Machine

/-! ### An instruction as its accesses -/

/-- `s` with the registers blanked. Two states equal under it agree on everything but the processor's registers. -/
def State.exceptCpu (s : State) : State := { s with cpu := State.reset.cpu }

/-- Bus reads one after another, for what they change. -/
def readAll (as : List Word) (s : State) : State := as.foldl (fun t a => (busRead a t).2) s

/-- Bus writes one after another. -/
def writeAll (ws : List (Word × Byte)) (s : State) : State := ws.foldl (fun t w => busWrite w.1 w.2 t) s

/-- `t` comes from `s`, the registers apart, by reads of the addresses `as` and then writes of the addresses `bs`. -/
def Accesses (as bs : List Word) (s t : State) : Prop :=
  ∃ ws : List (Word × Byte), ws.map Prod.fst = bs ∧ t.exceptCpu = (writeAll ws (readAll as s)).exceptCpu

namespace Accesses

/-- No access that changes anything. -/
theorem registersOnly {s t : State} (h : t.exceptCpu = s.exceptCpu) : Accesses [] [] s t := ⟨[], rfl, h⟩

/-- Only reads. -/
theorem reads {as : List Word} {s t : State} (h : t.exceptCpu = (readAll as s).exceptCpu) : Accesses as [] s t := ⟨[], rfl, h⟩

/-- What an operation does to the registers after its accesses does not matter. -/
theorem of_exceptCpu {as bs : List Word} {s t u : State} (h : Accesses as bs s t) (hu : u.exceptCpu = t.exceptCpu) :
    Accesses as bs s u := by
  obtain ⟨ws, hws, ht⟩ := h
  exact ⟨ws, hws, hu.trans ht⟩

theorem readMem (m : MemMode) (s : State) : Accesses [(effAddr m s).1] [] s (readMem m s).2 := by
  unfold Machine.readMem
  dsimp only
  rw [effAddr_snd]
  exact reads rfl

theorem readSrc (o : Src) (s : State) :
    Accesses ((sourceMode o).map fun m => (effAddr m s).1).toList [] s (readSrc o s).2 := by
  cases o with
  | immediate v => exact registersOnly rfl
  | memory m => exact readMem m s

theorem storeTo (m : MemMode) (v : Byte) (s : State) : Accesses [] [(effAddr m s).1] s (storeTo m v s) := by
  unfold Machine.storeTo
  dsimp only
  rw [effAddr_snd]
  exact ⟨[((effAddr m s).1, v)], rfl, rfl⟩

theorem rmwMem (m : MemMode) (f : Byte → Bool → Byte × Bool) (s : State) :
    Accesses [(effAddr m s).1] [(effAddr m s).1] s (rmwMem m f s) := by
  unfold Machine.rmwMem
  dsimp only
  rw [effAddr_snd]
  exact ⟨[((effAddr m s).1, _)], rfl, rfl⟩

theorem rmw (t : RmwTarget) (f : Byte → Bool → Byte × Bool) (s : State) :
    Accesses ((targetMode t).map fun m => (effAddr m s).1).toList ((targetMode t).map fun m => (effAddr m s).1).toList s
      (rmw t f s) := by
  cases t with
  | accumulator => exact registersOnly rfl
  | memory m => exact rmwMem m f s

theorem branch (sel : BitVec 2) (exp : Bool) (d : Byte) (s : State) : Accesses [] [] s (branch sel exp d s) := by
  rw [branch_eq]
  exact registersOnly rfl

theorem busRead16page (w : Word) (s : State) :
    Accesses [w, mkWord (hiByte w) (loByte w + 1)] [] s (busRead16page w s).2 := reads rfl

/-- The stack is plain storage, so a pull makes no access that changes anything. -/
theorem pull (s : State) : Accesses [] [] s (pull s).2 := by
  rw [pull_eq]
  exact registersOnly rfl

theorem pull16 (s : State) : Accesses [] [] s (pull16 s).2 := by
  rw [pull16_eq]
  exact registersOnly rfl

theorem pullStatus (s : State) : Accesses [] [] s (pullStatus s) := (pull s).of_exceptCpu rfl

theorem interruptReturn (s : State) : Accesses [] [] s (interruptReturn s) := by
  unfold Machine.interruptReturn
  dsimp only
  rw [pull16_eq]
  exact (pullStatus s).of_exceptCpu rfl

theorem push (v : Byte) (s : State) : Accesses [] [stackAddr s.cpu.s] s (push v s) := ⟨[(stackAddr s.cpu.s, v)], rfl, rfl⟩

theorem push16 (w : Word) (s : State) :
    Accesses [] [stackAddr s.cpu.s, stackAddr (s.cpu.s - 1)] s (push16 w s) := by
  refine ⟨[(stackAddr s.cpu.s, hiByte w), (stackAddr (s.cpu.s - 1), loByte w)], rfl, ?_⟩
  rw [push16_eq]
  simp only [writeAll, readAll, List.foldl, busWrite_plain, plainWrite_stack, storeByte_cfg]
  rfl

/-- BRK's vector is plain storage too. -/
theorem brk (s : State) :
    Accesses [] [stackAddr s.cpu.s, stackAddr (s.cpu.s - 1), stackAddr (s.cpu.s - 2)] s
      (interruptEntry irqVector true (s.setPc (s.cpu.pc + 1))) := by
  refine ⟨[(stackAddr s.cpu.s, hiByte (s.cpu.pc + 1)), (stackAddr (s.cpu.s - 1), loByte (s.cpu.pc + 1)),
    (stackAddr (s.cpu.s - 2), pushedStatus s.cpu.p true)], rfl, ?_⟩
  rw [interruptEntry_eq _ _ _ (by decide) (by decide)]
  simp only [writeAll, readAll, List.foldl, busWrite_plain, plainWrite_stack, storeByte_cfg]
  rfl

/-- Every instruction, its registers apart, is its data reads and then its stores. -/
theorem runOp (o : Op) (s : State) : Accesses (dataReads o s) (storeAddrs o s) s (runOp o s) := by
  cases o <;>
    simp only [dataReads, storeAddrs, readMode, storeMode, pointerReads, pushedAddrs, Option.map_none, Option.map_some,
      Option.toList_none, Option.toList_some, List.append_nil, List.nil_append]
  case adc o | sbc o | and o | ora o | eor o | lda o | ldx o | ldy o | cmp o | cpx o | cpy o =>
    exact (readSrc o s).of_exceptCpu rfl
  case bit m => exact (readMem m s).of_exceptCpu rfl
  case sta m | stx m | sty m => exact storeTo m _ s
  case inc m | dec m => exact rmwMem m _ s
  case asl t | lsr t | rol t | ror t => exact rmw t _ s
  case bpl d | bmi d | bvc d | bvs d | bcc d | bcs d | bne d | beq d => exact branch _ _ d s
  case jmpIndirect w => exact (busRead16page w s).of_exceptCpu rfl
  case jsr w => exact (push16 _ s).of_exceptCpu rfl
  case rts => exact (pull16 s).of_exceptCpu rfl
  case rti => exact interruptReturn s
  case brk => exact brk s
  case pha | php => exact push _ s
  case pla => exact (pull s).of_exceptCpu rfl
  case plp => exact pullStatus s
  all_goals exact registersOnly rfl

end Accesses

/-! ### What accesses keep -/

theorem readAll_exceptReads (as : List Word) (s : State) : (readAll as s).exceptReads = s.exceptReads := by
  induction as generalizing s with
  | nil => rfl
  | cons a as ih => exact (ih _).trans (busRead_exceptReads a s)

theorem readAll_plain (as : List Word) (s : State) (h : ∀ a ∈ as, plainRead s.cfg a = true) : readAll as s = s := by
  induction as with
  | nil => rfl
  | cons a as ih =>
    obtain ⟨ha, has⟩ := List.forall_mem_cons.mp h
    unfold readAll
    rw [List.foldl_cons, busRead_plain a s ha]
    exact ih has

theorem writeAll_byteAt (ws : List (Word × Byte)) (s : State) (a : Word)
    (h : ∀ b ∈ ws.map Prod.fst, busIndex s.cfg b ≠ busIndex s.cfg a) : (writeAll ws s).byteAt a = s.byteAt a := by
  induction ws generalizing s with
  | nil => rfl
  | cons w ws ih =>
    obtain ⟨hw, hws⟩ := List.forall_mem_cons.mp h
    have rest := ih (busWrite w.1 w.2 s) (by rwa [busWrite_cfg])
    exact rest.trans (busWrite_other w.1 a w.2 s hw)

/-- The devices' part of the state: the graphics unit, the input latch and the count of free values drawn. -/
def State.devices (s : State) : Gfx × InputLatch × Nat := (s.gfx, s.input, s.draws)

/-- A write that goes to no device is a store, or dropped by a cartridge window that ignores writes (R61). -/
theorem busWrite_devices (a : Word) (v : Byte) (s : State) (h : deviceWrite s.cfg a = false) :
    (busWrite a v s).devices = s.devices := by
  unfold busWrite
  split
  · rfl
  · next hm =>
    have hnes : s.cfg.busMode = .nes := by
      cases hb : s.cfg.busMode with
      | nes => rfl
      | flat => exact absurd hb hm
    unfold deviceWrite at h
    simp only [hnes, beq_self_eq_true, Bool.true_and, Bool.or_eq_false_iff, beq_eq_false_iff_ne] at h
    obtain ⟨⟨hwindow, h14⟩, h16⟩ := h
    rw [hwindow, if_neg (by decide), if_neg h14, if_neg h16]
    split <;> rfl

theorem writeAll_devices (ws : List (Word × Byte)) (s : State) (h : ∀ a ∈ ws.map Prod.fst, deviceWrite s.cfg a = false) :
    (writeAll ws s).devices = s.devices := by
  induction ws generalizing s with
  | nil => rfl
  | cons w ws ih =>
    obtain ⟨hw, hws⟩ := List.forall_mem_cons.mp h
    have rest := ih (busWrite w.1 w.2 s) (by rwa [busWrite_cfg])
    exact rest.trans (busWrite_devices w.1 w.2 s hw)

/-- Settles O16: the data reads change no byte and the stores only their own. -/
theorem memoryOutsideTheStoresIsKept : Obligations.MemoryOutsideTheStoresIsKept := by
  intro i s t h a ha
  rw [exec_eq] at h
  cases h
  obtain ⟨ws, hws, hrun⟩ := Accesses.runOp i.op s
  have hreads := readAll_exceptReads (dataReads i.op s) s
  calc (runOp i.op s).byteAt a
    _ = (writeAll ws (readAll (dataReads i.op s) s)).byteAt a := congrArg (fun q => q.byteAt a) hrun
    _ = (readAll (dataReads i.op s) s).byteAt a := writeAll_byteAt ws _ a (by rwa [hws, State.cfg_of_exceptReads hreads])
    _ = s.byteAt a := State.byteAt_of_exceptReads hreads a

/-- Settles O17: plain data reads change nothing, and the stores reach no device. -/
theorem devicesAreKeptByPlainAccesses : Obligations.DevicesAreKeptByPlainAccesses := by
  intro i s t h hread hstore
  rw [exec_eq] at h
  cases h
  obtain ⟨ws, hws, hrun⟩ := Accesses.runOp i.op s
  rw [readAll_plain _ s hread] at hrun
  have hdevices : (runOp i.op s).devices = s.devices :=
    calc (runOp i.op s).devices
      _ = (writeAll ws s).devices := congrArg (fun q => q.devices) hrun
      _ = s.devices := writeAll_devices ws s (by rwa [hws])
  simpa only [State.devices, Prod.mk.injEq] using hdevices

end Sys2Proof.Machine
end

section
/-! The opcode map, the encoder and the decoder (spec 30_encoding R100-R111): for each byte of the map, the bytes
that the encoder writes, the bytes that the decoder reads, and the mnemonic and operand that the field tables give. -/

namespace Sys2Proof

/-! ### One byte of the opcode map -/

/-- The instruction that a format gives with operand bytes, read as far as the format needs them (R100). -/
def OpForm.instr (f : OpForm) (lo hi : Byte) : Instr :=
  match f with
  | .f1 i => i
  | .f2 mk => mk lo
  | .f3 mk => mk (mkWord hi lo)

/-- The operand bytes that a format reads (R100). -/
def OpForm.operands (f : OpForm) (lo hi : Byte) : List Byte :=
  match f with
  | .f1 _ => []
  | .f2 _ => [lo]
  | .f3 _ => [lo, hi]

/-- The bytes the encoder writes for an instruction of a format, a 16-bit operand still joined. -/
def OpForm.encoded (f : OpForm) (op lo hi : Byte) : List Byte :=
  match f with
  | .f1 _ => [op]
  | .f2 _ => [op, lo]
  | .f3 _ => encodeF3 op (mkWord hi lo)

theorem OpForm.encoded_eq (f : OpForm) (op lo hi : Byte) : f.encoded op lo hi = op :: f.operands lo hi := by
  cases f with
  | f1 i => rfl
  | f2 mk => rfl
  | f3 mk => simp [encoded, operands, encodeF3]

/-- A byte is one of 256 numerals: the opcode map and the tables it is compared with are checked at each. -/
theorem byte_induction {motive : Byte → Prop} (ofNat : ∀ k < 256, motive (BitVec.ofNat 8 k)) (b : Byte) : motive b := by
  simpa using ofNat b.toNat b.isLt

/-- The encoder against the map: for an instruction of the map it writes the map's byte and the format's operands. -/
theorem opcodeForm_encoded (op lo hi : Byte) :
    (opcodeForm op).map (fun f => encode (f.instr lo hi)) = (opcodeForm op).map (fun f => f.encoded op lo hi) := by
  induction op using byte_induction with
  | ofNat k hk => interval_cases k <;> rfl

/-- The field tables against the map: the two decode paths give what the map gives, fault kinds included (R101-R103, R110). -/
theorem decodeFields_eq (op lo hi : Byte) : decodeFields op lo hi = (opcodeForm op).map (fun f => (f.instr lo hi).op) := by
  induction op using byte_induction with
  | ofNat k hk => interval_cases k <;> rfl

theorem encode_instr {op : Byte} {f : OpForm} (h : opcodeForm op = .ok f) (lo hi : Byte) :
    encode (f.instr lo hi) = op :: f.operands lo hi := by
  have hmap := opcodeForm_encoded op lo hi
  rw [h] at hmap
  exact (Except.ok.inj hmap).trans (f.encoded_eq op lo hi)

/-! ### The decoder -/

/-- An opcode of the map with its operands decodes to the instruction of its format (R106, R107). -/
theorem decode_operands {op : Byte} {f : OpForm} (h : opcodeForm op = .ok f) (lo hi : Byte) (rest : List Byte) :
    decode (op :: f.operands lo hi ++ rest) = .ok (f.instr lo hi, rest) := by
  unfold decode
  cases f <;> simp [h, OpForm.operands, OpForm.instr]

/-- Nothing else decodes. -/
theorem exists_of_decode_eq_ok {bytes rest : List Byte} {i : Instr} (h : decode bytes = .ok (i, rest)) :
    ∃ op f lo hi, opcodeForm op = .ok f ∧ i = f.instr lo hi ∧ bytes = op :: f.operands lo hi ++ rest := by
  unfold decode at h
  split at h
  · cases h
  split at h
  · cases h
  · next op _ _ _ _ hf => cases h; exact ⟨op, _, 0, 0, hf, rfl, rfl⟩
  · next op _ _ _ lo _ hf => cases h; exact ⟨op, _, lo, 0, hf, rfl, rfl⟩
  · next op _ _ _ lo hi _ hf => cases h; exact ⟨op, _, lo, hi, hf, rfl, rfl⟩
  all_goals cases h

/-- Every instruction is a row of the map (R106): the map gives it at its opcode byte, with the operand bytes that follow. -/
theorem Instr.exists_opcodeForm (i : Instr) :
    ∃ f, opcodeForm (opcodeOf i) = .ok f ∧ f.instr ((encode i).getD 1 0) ((encode i).getD 2 0) = i := by
  cases i
  case oraAbs w | aslAbs w | oraAbsY w | oraAbsX w | aslAbsX w | jsr w | bitAbs w | andAbs w | rolAbs w | andAbsY w | andAbsX w
    | rolAbsX w | jmpAbs w | eorAbs w | lsrAbs w | eorAbsY w | eorAbsX w | lsrAbsX w | jmpInd w | adcAbs w | rorAbs w |
    adcAbsY w | adcAbsX w | rorAbsX w | styAbs w | staAbs w | stxAbs w | staAbsY w | staAbsX w | ldyAbs w | ldaAbs w | ldxAbs w
    | ldaAbsY w | ldyAbsX w | ldaAbsX w | ldxAbsY w | cpyAbs w | cmpAbs w | decAbs w | cmpAbsY w | cmpAbsX w | decAbsX w |
    cpxAbs w | sbcAbs w | incAbs w | sbcAbsY w | sbcAbsX w | incAbsX w =>
    exact ⟨_, rfl, congrArg _ (mkWord_hiByte_loByte w)⟩
  all_goals exact ⟨_, rfl, rfl⟩

theorem decode_encode (i : Instr) (rest : List Byte) : decode (encode i ++ rest) = .ok (i, rest) := by
  obtain ⟨f, hf, hi⟩ := i.exists_opcodeForm
  have henc := encode_instr hf ((encode i).getD 1 0) ((encode i).getD 2 0)
  rw [hi] at henc
  rw [henc, decode_operands hf, hi]

/-- Settles O1: an instruction is a row of the map, at which the encoder and the decoder agree. -/
theorem decodeOfEncodeIsTheInstruction : Obligations.DecodeOfEncodeIsTheInstruction := decode_encode

/-- Settles O2: bytes that decode are an opcode of the map with its operands, which is what the encoder writes. -/
theorem decodedBytesAreTheEncoding : Obligations.DecodedBytesAreTheEncoding := by
  intro bytes i rest h
  obtain ⟨op, f, lo, hi, hf, rfl, rfl⟩ := exists_of_decode_eq_ok h
  rw [encode_instr hf]

/-- Settles O5: each of the words is the encoding of its instruction. -/
theorem writtenOutWordsDecode : Obligations.WrittenOutWordsDecode :=
  ⟨decode_encode (.ldaAbs 0x1234) [], decode_encode (.ldaZpX 0xFF) [], decode_encode (.adcImm 0x50) [],
    decode_encode (.bitZp 0x10) [], decode_encode (.jmpInd 0x02FF) [], decode_encode (.jsr 0x9000) [],
    decode_encode (.rorZp 0x10) [], decode_encode (.staIndY 0x10) [], decode_encode (.bne 0xFB) [], decode_encode .php [],
    decode_encode .sed [], decode_encode .txs [], decode_encode .brk [0xEA]⟩

/-- Settles O3: `decodeFields_eq`, read format by format. -/
theorem fieldDecodeAgreesWithTheMap : Obligations.FieldDecodeAgreesWithTheMap := by
  intro op lo hi
  have h := decodeFields_eq op lo hi
  cases hf : opcodeForm op with
  | error k => rwa [hf] at h
  | ok f =>
    rw [hf] at h
    cases f <;> exact h

end Sys2Proof
end

section
/-! The rows of the opcode map by mnemonic and mode (spec 30_encoding R103, R106). -/

namespace Sys2Proof

/-! ### The row of a mnemonic in a mode

One table for each of the mode sets of R103, from the constructors of the rows that the set has. -/

/-- Group 01's rows (`MemMode.group01`). -/
def MemMode.group01Row (zp zpX : Byte → Instr) (abs absX absY : Word → Instr) (indX indY : Byte → Instr) :
    MemMode → Option Instr
  | .zeroPage a => some (zp a)
  | .zeroPageX a => some (zpX a)
  | .absolute w => some (abs w)
  | .absoluteX w => some (absX w)
  | .absoluteY w => some (absY w)
  | .indirectX a => some (indX a)
  | .indirectY a => some (indY a)
  | .zeroPageY _ => none

/-- The rows of the shifts, INC, DEC and LDY (`MemMode.indexedByX`). -/
def MemMode.indexedByXRow (zp zpX : Byte → Instr) (abs absX : Word → Instr) : MemMode → Option Instr
  | .zeroPage a => some (zp a)
  | .zeroPageX a => some (zpX a)
  | .absolute w => some (abs w)
  | .absoluteX w => some (absX w)
  | .zeroPageY _ | .absoluteY _ | .indirectX _ | .indirectY _ => none

/-- LDX's rows (`MemMode.indexedByY`). -/
def MemMode.indexedByYRow (zp zpY : Byte → Instr) (abs absY : Word → Instr) : MemMode → Option Instr
  | .zeroPage a => some (zp a)
  | .zeroPageY a => some (zpY a)
  | .absolute w => some (abs w)
  | .absoluteY w => some (absY w)
  | .zeroPageX _ | .absoluteX _ | .indirectX _ | .indirectY _ => none

/-- The rows of BIT, CPX and CPY (`MemMode.unindexed`). -/
def MemMode.unindexedRow (zp : Byte → Instr) (abs : Word → Instr) : MemMode → Option Instr
  | .zeroPage a => some (zp a)
  | .absolute w => some (abs w)
  | .zeroPageX _ | .zeroPageY _ | .absoluteX _ | .absoluteY _ | .indirectX _ | .indirectY _ => none

/-- STX's rows (`MemMode.storesX`). -/
def MemMode.storesXRow (zp zpY : Byte → Instr) (abs : Word → Instr) : MemMode → Option Instr
  | .zeroPage a => some (zp a)
  | .zeroPageY a => some (zpY a)
  | .absolute w => some (abs w)
  | .zeroPageX _ | .absoluteX _ | .absoluteY _ | .indirectX _ | .indirectY _ => none

/-- STY's rows (`MemMode.storesY`). -/
def MemMode.storesYRow (zp zpX : Byte → Instr) (abs : Word → Instr) : MemMode → Option Instr
  | .zeroPage a => some (zp a)
  | .zeroPageX a => some (zpX a)
  | .absolute w => some (abs w)
  | .zeroPageY _ | .absoluteX _ | .absoluteY _ | .indirectX _ | .indirectY _ => none

/-- The row of an operand that is read. -/
def Src.row (imm : Byte → Instr) (mem : MemMode → Option Instr) : Src → Option Instr
  | .immediate v => some (imm v)
  | .memory m => mem m

/-- The row of a shift's target. -/
def RmwTarget.row (acc : Instr) (mem : MemMode → Option Instr) : RmwTarget → Option Instr
  | .accumulator => some acc
  | .memory m => mem m

open Instr MemMode in
/-- The row of the opcode map that has a mnemonic and operand, if one does. -/
def rowOf : Op → Option Instr
  | .adc o => o.row adcImm (group01Row adcZp adcZpX adcAbs adcAbsX adcAbsY adcIndX adcIndY)
  | .sbc o => o.row sbcImm (group01Row sbcZp sbcZpX sbcAbs sbcAbsX sbcAbsY sbcIndX sbcIndY)
  | .and o => o.row andImm (group01Row andZp andZpX andAbs andAbsX andAbsY andIndX andIndY)
  | .ora o => o.row oraImm (group01Row oraZp oraZpX oraAbs oraAbsX oraAbsY oraIndX oraIndY)
  | .eor o => o.row eorImm (group01Row eorZp eorZpX eorAbs eorAbsX eorAbsY eorIndX eorIndY)
  | .cmp o => o.row cmpImm (group01Row cmpZp cmpZpX cmpAbs cmpAbsX cmpAbsY cmpIndX cmpIndY)
  | .lda o => o.row ldaImm (group01Row ldaZp ldaZpX ldaAbs ldaAbsX ldaAbsY ldaIndX ldaIndY)
  | .cpx o => o.row cpxImm (unindexedRow cpxZp cpxAbs)
  | .cpy o => o.row cpyImm (unindexedRow cpyZp cpyAbs)
  | .ldx o => o.row ldxImm (indexedByYRow ldxZp ldxZpY ldxAbs ldxAbsY)
  | .ldy o => o.row ldyImm (indexedByXRow ldyZp ldyZpX ldyAbs ldyAbsX)
  | .bit m => m.unindexedRow bitZp bitAbs
  | .sta m => m.group01Row staZp staZpX staAbs staAbsX staAbsY staIndX staIndY
  | .stx m => m.storesXRow stxZp stxZpY stxAbs
  | .sty m => m.storesYRow styZp styZpX styAbs
  | .inc m => m.indexedByXRow incZp incZpX incAbs incAbsX
  | .dec m => m.indexedByXRow decZp decZpX decAbs decAbsX
  | .asl t => t.row aslAcc (indexedByXRow aslZp aslZpX aslAbs aslAbsX)
  | .lsr t => t.row lsrAcc (indexedByXRow lsrZp lsrZpX lsrAbs lsrAbsX)
  | .rol t => t.row rolAcc (indexedByXRow rolZp rolZpX rolAbs rolAbsX)
  | .ror t => t.row rorAcc (indexedByXRow rorZp rorZpX rorAbs rorAbsX)
  | .bpl d => some (bpl d) | .bmi d => some (bmi d) | .bvc d => some (bvc d) | .bvs d => some (bvs d)
  | .bcc d => some (bcc d) | .bcs d => some (bcs d) | .bne d => some (bne d) | .beq d => some (beq d)
  | .jmp w => some (jmpAbs w) | .jmpIndirect w => some (jmpInd w) | .jsr w => some (jsr w)
  | .rts => some rts | .rti => some rti | .brk => some brk
  | .pha => some pha | .php => some php | .pla => some pla | .plp => some plp
  | .clc => some clc | .cld => some cld | .cli => some cli | .clv => some clv
  | .sec => some sec | .sed => some sed | .sei => some sei
  | .tax => some tax | .tay => some tay | .txa => some txa | .tya => some tya | .tsx => some tsx | .txs => some txs
  | .inx => some inx | .iny => some iny | .dex => some dex | .dey => some dey | .nop => some nop

/-- Every instruction is the row of its mnemonic and operand. -/
theorem rowOf_op (i : Instr) : rowOf i.op = some i := by cases i <;> rfl

/-- A mnemonic with an operand has a row exactly when it is well formed, and the row's are that mnemonic and operand. -/
theorem rowOf_map_op (o : Op) : (rowOf o).map Instr.op = if o.wellFormed then some o else none := by
  cases o
  case adc o | sbc o | and o | ora o | eor o | cmp o | cpx o | cpy o | lda o | ldx o | ldy o =>
    cases o with
    | immediate v => rfl
    | memory m => cases m <;> rfl
  case asl t | lsr t | rol t | ror t =>
    cases t with
    | accumulator => rfl
    | memory m => cases m <;> rfl
  case bit m | sta m | stx m | sty m | inc m | dec m => cases m <;> rfl
  all_goals rfl

/-- Settles O4: the row that a well-formed operation has, and the row that an instruction is. -/
theorem wellFormedOperationsAreTheRows : Obligations.WellFormedOperationsAreTheRows := by
  refine ⟨fun o => ⟨fun hwf => ?_, ?_⟩, fun i j h => ?_⟩
  · have hrow := rowOf_map_op o
    rw [if_pos hwf] at hrow
    obtain ⟨i, -, hi⟩ := Option.map_eq_some_iff.mp hrow
    exact ⟨i, hi⟩
  · rintro ⟨i, rfl⟩
    simpa [rowOf_op] using rowOf_map_op i.op
  · exact Option.some.inj (by rw [← rowOf_op i, h, rowOf_op])

end Sys2Proof
end

section
/-! The illegal opcodes (spec 30_encoding R104) and the fault record that fetching one leaves (60_exceptions R302). -/

namespace Sys2Proof.Machine

/-- The fault kind the opcode map gives a byte, if it has no row for it. -/
def mapFault (op : Byte) : Option FaultKind :=
  match opcodeForm op with
  | .error k => some k
  | .ok _ => none

theorem mapFault_eq_some {op : Byte} {k : FaultKind} : mapFault op = some k ↔ opcodeForm op = .error k := by
  unfold mapFault
  cases opcodeForm op <;> simp

/-- R104's list against the map. -/
theorem mapFault_eq (op : Byte) :
    mapFault op = if op.toNat ∈ fatalBytes then some (if op = 0x89 then .noAddress else .unknownOpcode) else none := by
  induction op using byte_induction with
  | ofNat k hk => interval_cases k <;> rfl

theorem opcodeForm_eq_error {op : Byte} {k : FaultKind} :
    opcodeForm op = .error k ↔ op.toNat ∈ fatalBytes ∧ k = if op = 0x89 then .noAddress else .unknownOpcode := by
  rw [← mapFault_eq_some, mapFault_eq, Option.ite_none_right_eq_some, Option.some_inj, eq_comm (a := k)]

/-- Fetching a byte without a row raises its fault in the state the fetch leaves (R302). -/
theorem fetchInstr_error {s : State} {k : FaultKind} (h : opcodeForm (busRead s.cpu.pc s).1 = .error k) :
    fetchInstr s = .fatal (raiseFatal k (busRead s.cpu.pc s).1 s.cpu.pc ((busRead s.cpu.pc s).2.setPc (s.cpu.pc + 1))) := by
  unfold fetchInstr
  dsimp only
  rw [fetch8_eq, h]

@[simp] theorem busRead_cycles (a : Word) (s : State) : (busRead a s).2.cycles = s.cycles :=
  congrArg (fun q => q.cycles) (busRead_exceptReads a s)

/-- The fault record after a bus read holds the registers from before it, with PC as it is set (R302). -/
theorem raiseFatal_busRead (k : FaultKind) (op : Byte) (addr a w : Word) (s : State) :
    raiseFatal k op addr ((busRead a s).2.setPc w) =
      { (busRead a s).2 with
        cpu := { s.cpu with pc := w }
        fault := some (k.record
          { opcode := op, addr := addr,
            snapshot := { a := s.cpu.a, x := s.cpu.x, y := s.cpu.y, s := s.cpu.s, pc := w, p := s.cpu.p.asByte,
                          cycles := s.cycles } }) } := by
  unfold raiseFatal State.snapshot State.setFault State.setPc
  dsimp only
  rw [busRead_cpu, busRead_cycles]

/-- Settles O9: the bytes and kinds by `opcodeForm_eq_error`, the step because it is the opcode fetch and the record. -/
theorem illegalOpcodeEntersTheFaultedState : Obligations.IllegalOpcodeEntersTheFaultedState := by
  refine ⟨fun op => ?_, fun op k h => ?_, ?_⟩
  · simp only [opcodeForm_eq_error, exists_and_left, exists_eq, and_true]
  · exact (opcodeForm_eq_error.mp h).2
  · intro s hrun k r h
    have hstep := step_running s hrun
    obtain ⟨-, hhalted, -⟩ := hrun
    rw [hstep, orchestratorStep_fatal s.begun _ hhalted (fetchInstr_error h)]
    exact congrArg _ (raiseFatal_busRead ..)

end Sys2Proof.Machine
end

section
/-! The flags an instruction leaves alone (spec 30_encoding R106, 10_state R30-R37). -/

namespace Sys2Proof.Machine

/-- `q` agrees with `p` in every flag that a list does not name. -/
def Flags.KeptOutside (l : List FlagName) (p q : Flags) : Prop := ∀ f, f ∉ l → q.get f = p.get f

theorem Flags.keptOutside_iff (l : List FlagName) (p q : Flags) :
    KeptOutside l p q ↔
      (.n ∈ l ∨ q.n = p.n) ∧ (.v ∈ l ∨ q.v = p.v) ∧ (.b ∈ l ∨ q.b = p.b) ∧ (.d ∈ l ∨ q.d = p.d) ∧ (.i ∈ l ∨ q.i = p.i) ∧
        (.z ∈ l ∨ q.z = p.z) ∧ (.c ∈ l ∨ q.c = p.c) := by
  simp only [or_iff_not_imp_left]
  constructor
  · exact fun h => ⟨h .n, h .v, h .b, h .d, h .i, h .z, h .c⟩
  · rintro ⟨hn, hv, hb, hd, hi, hz, hc⟩ f hf
    cases f with
    | n => exact hn hf
    | v => exact hv hf
    | b => exact hb hf
    | d => exact hd hf
    | i => exact hi hf
    | z => exact hz hf
    | c => exact hc hf

namespace Flags.KeptOutside

@[simp] theorem refl (l : List FlagName) (p : Flags) : KeptOutside l p p := fun _ _ => rfl

@[simp] theorem setNZ (p : Flags) (v : Byte) : KeptOutside [.n, .z] p (p.setNZ v) := by
  simp [keptOutside_iff, Flags.setNZ]

@[simp] theorem setNZ_carry (p : Flags) (v : Byte) (c : Bool) : KeptOutside [.n, .z, .c] p ({ p with c := c }.setNZ v) := by
  simp [keptOutside_iff, Flags.setNZ]

@[simp] theorem addCore (p : Flags) (a m : Byte) : KeptOutside [.n, .v, .z, .c] p (p.addCore a m) := by
  simp [keptOutside_iff, Flags.addCore, Flags.setNZ]

@[simp] theorem compare (p : Flags) (r m : Byte) : KeptOutside [.n, .z, .c] p (p.compare r m) := by
  simp [keptOutside_iff, Flags.compare, Flags.setNZ]

@[simp] theorem bitTest (p : Flags) (a m : Byte) : KeptOutside [.n, .v, .z] p (p.bitTest a m) := by
  simp [keptOutside_iff, Flags.bitTest]

/-- B alone stays (R150). -/
@[simp] theorem pulled (p : Flags) (v : Byte) : KeptOutside [.n, .v, .d, .i, .z, .c] p (p.pulled v) := by
  simp [keptOutside_iff, Flags.pulled]

end Flags.KeptOutside

@[simp] theorem interruptReturn_p (s : State) : (interruptReturn s).cpu.p = s.cpu.p.pulled (pull s).1 := by
  unfold interruptReturn
  simp

@[simp] theorem interruptEntry_p (vec : Word) (brk : Bool) (s : State) :
    (interruptEntry vec brk s).cpu.p = { s.cpu.p with i := true } := by
  unfold interruptEntry
  simp

/-- The flags after an instruction, by mnemonic: none but those of the "flags written" column change. -/
theorem runOp_flags (o : Op) (s : State) : Flags.KeptOutside (flagsWritten o) s.cpu.p (runOp o s).cpu.p := by
  cases o
  case adc o | sbc o => simp [runOp, flagsWritten, adc, sbc]
  case and o | ora o | eor o | lda o | ldx o | ldy o => simp [runOp, flagsWritten, andA, oraA, eorA, lda, ldx, ldy]
  case cmp o | cpx o | cpy o => simp [runOp, flagsWritten, cmp, cpx, cpy]
  case bit m => simp [runOp, flagsWritten, bitA]
  case sta m | stx m | sty m => simp [runOp]
  case inc m | dec m => simp [runOp, flagsWritten, rmwMem_cpu, incFn, decFn]
  case asl t | lsr t | rol t | ror t =>
    cases t with
    | accumulator => simp [runOp, flagsWritten, rmw, rmwAcc]
    | memory m => simp [runOp, flagsWritten, rmw, rmwMem_cpu]
  case bpl d | bmi d | bvc d | bvs d | bcc d | bcs d | bne d | beq d =>
    simp only [runOp]
    rw [branch_eq]
    simp
  case jmp w | jmpIndirect w | jsr w | rts | pha | php | txs | nop => simp [runOp]
  case pla | plp | rti => simp [runOp, flagsWritten]
  case brk | clc | cld | cli | clv | sec | sed | sei => simp [runOp, flagsWritten, Flags.keptOutside_iff]
  case tax | tay | txa | tya | tsx | inx | iny | dex | dey => simp [runOp, flagsWritten]

/-- Settles O14: every row runs its mnemonic (`exec_eq`), and none of them leaves its column. -/
theorem flagsOutsideTheColumnAreKept : Obligations.FlagsOutsideTheColumnAreKept := by
  intro i s t h
  rw [exec_eq] at h
  cases h
  exact runOp_flags i.op s

end Sys2Proof.Machine
end

section
/-! Addressing as arithmetic (spec 40_addressing R131-R138), and the jumps (47_control R269). -/

namespace Sys2Proof.Machine

/-! ### Wrapping sums -/

/-- A zero-page sum wraps within the page (R134). -/
theorem zext16_add (a b : Byte) : zext16 (a + b) = BitVec.ofNat 16 ((a.toNat + b.toNat) % 256) := by
  rw [zext16_eq, BitVec.toNat_add]

/-- An indexed sum wraps at 16 bits (R136, R138). -/
theorem add_zext16 (w : Word) (b : Byte) : w + zext16 b = BitVec.ofNat 16 ((w.toNat + b.toNat) % 65536) := by
  apply BitVec.eq_of_toNat_eq
  rw [BitVec.toNat_add, zext16_toNat, BitVec.toNat_ofNat, Nat.mod_mod]

theorem byteSucc_toNat (b : Byte) : (b + 1).toNat = (b.toNat + 1) % 256 := BitVec.toNat_add b 1

/-- The next address within a page (R142). -/
theorem nextInPage (w : Word) :
    mkWord (hiByte w) (loByte w + 1) = BitVec.ofNat 16 (w.toNat / 256 * 256 + (w.toNat + 1) % 256) := by
  rw [mkWord_eq, hiByte_toNat, byteSucc_toNat, loByte_toNat, Nat.mod_add_mod, Nat.mul_comm]

/-! ### Effective addresses -/

/-- The pointer at `p`, both of its bytes taken from page zero (R137, R138). -/
def State.zpPointer (s : State) (p : Nat) : Nat :=
  (s.byteAt (BitVec.ofNat 16 (p % 256))).toNat + 256 * (s.byteAt (BitVec.ofNat 16 ((p + 1) % 256))).toNat

theorem busRead16zp_zpPointer {b : Byte} {p : Nat} (s : State) (h : b.toNat = p % 256) :
    busRead16zp b s = (BitVec.ofNat 16 (s.zpPointer p), s) := by
  have hlo : zext16 b = BitVec.ofNat 16 (p % 256) := by rw [zext16_eq, h]
  have hhi : zext16 (b + 1) = BitVec.ofNat 16 ((p + 1) % 256) := by
    rw [zext16_eq, byteSucc_toNat, h, Nat.mod_add_mod]
  rw [busRead16zp_eq, hlo, hhi, mkWord_eq, Nat.add_comm]
  rfl

theorem effAddr_indirectX (a : Byte) (s : State) :
    effAddr (.indirectX a) s = (BitVec.ofNat 16 (s.zpPointer (a.toNat + s.cpu.x.toNat)), s) :=
  busRead16zp_zpPointer s (BitVec.toNat_add a s.cpu.x)

theorem effAddr_indirectY (a : Byte) (s : State) :
    effAddr (.indirectY a) s = (BitVec.ofNat 16 ((s.zpPointer a.toNat + s.cpu.y.toNat) % 65536), s) := by
  have hptr : busRead16zp a s = _ := busRead16zp_zpPointer s (Nat.mod_eq_of_lt a.isLt).symm
  unfold effAddr
  dsimp only
  rw [hptr, add_zext16, BitVec.toNat_ofNat, Nat.mod_add_mod]

/-- Settles O18: the direct modes are wrapping sums, the indirect ones read a page-zero pointer. -/
theorem effectiveAddresses : Obligations.EffectiveAddresses := by
  intro s a w x y pointer
  refine ⟨?zeroPage, ?zeroPageX, ?zeroPageY, rfl, ?absoluteX, ?absoluteY, effAddr_indirectX a s, effAddr_indirectY a s⟩
  case zeroPage => exact congrArg (·, s) (zext16_eq a)
  case zeroPageX => exact congrArg (·, s) (zext16_add a s.cpu.x)
  case zeroPageY => exact congrArg (·, s) (zext16_add a s.cpu.y)
  case absoluteX => exact congrArg (·, s) (add_zext16 w s.cpu.x)
  case absoluteY => exact congrArg (·, s) (add_zext16 w s.cpu.y)

/-! ### Operands -/

theorem readMem_eq (m : MemMode) (s : State) : readMem m s = busRead (effAddr m s).1 s := by
  unfold readMem
  dsimp only
  rw [effAddr_snd]

/-- A read that is not plain goes to the device its address selects (R60, R66). -/
theorem busRead_device (a : Word) (s : State) (h : plainRead s.cfg a = false) :
    busRead a s = if inGfxWindow a then gregRead (gfxOffset a) s else inputRead s := by
  have hmode : s.cfg.busMode ≠ .flat := fun hflat => by simp [plainRead_flat _ a hflat] at h
  unfold busRead
  rw [if_neg hmode]
  cases hwin : inGfxWindow a with
  | true => rfl
  | false =>
    have haddr : a = 0x4016#16 := by simpa [plainRead, hmode, hwin] using h
    simp [haddr]

/-- Settles O19: a memory operand is one bus read at the effective address, plain or of a device. -/
theorem operandValues : Obligations.OperandValues := fun s _ m =>
  ⟨rfl, readMem_plain m s, fun h => (readMem_eq m s).trans (busRead_device _ s h)⟩

/-! ### Jumps -/

/-- Settles O34: JMP absolute-indirect's two bus reads keep every register, and the second stays in the pointer's page. -/
theorem jumpsAndThePagewrap : Obligations.JumpsAndThePagewrap := by
  intro s w lo hi
  have hread : busRead16page w s = (BitVec.ofNat 16 (256 * hi.1.toNat + lo.1.toNat), hi.2) := by
    unfold busRead16page
    dsimp only
    rw [nextInPage, mkWord_eq]
  have hcpu : hi.2.cpu = s.cpu := by rw [busRead_cpu, busRead_cpu]
  constructor
  · rfl
  · have hexec : exec (.jmpInd w) s = .next ((busRead16page w s).2.setPc (busRead16page w s).1) := exec_eq (.jmpInd w) s
    rw [hexec, hread, State.setPc, hcpu]

end Sys2Proof.Machine
end

section
/-! The status byte as numbers and bits, and the flag instructions (spec 41_flags R150-R160). -/

namespace Sys2Proof.Machine

/-! ### The status byte -/

/-- Appending a flag below `x` shifts `x` up by one bit. -/
theorem append_ofBool_toNat {w : Nat} (x : BitVec w) (b : Bool) : (x ++ BitVec.ofBool b).toNat = x.toNat * 2 + b.toNat :=
  BitVec.toNat_concat x b

/-- The weights of the flags in the status byte (R26, R150). -/
theorem asByte_toNat (p : Flags) :
    p.asByte.toNat =
      128 * p.n.toNat + 64 * p.v.toNat + 32 + 16 * p.b.toNat + 8 * p.d.toNat + 4 * p.i.toNat + 2 * p.z.toNat + p.c.toNat := by
  have hunused : 1#1 = BitVec.ofBool true := rfl
  unfold Flags.asByte
  simp only [hunused, append_ofBool_toNat, BitVec.toNat_ofBool, Bool.toNat_true]
  omega

/-- Packing what was unpacked sets bit 5 and keeps every other bit (R150, R151). -/
theorem asByte_loadByte (v : Byte) : (Flags.loadByte v).asByte = v ||| 0x20#8 := by
  apply BitVec.eq_of_getLsbD_eq
  intro k hk
  simp only [Flags.asByte, Flags.loadByte, BitVec.getLsbD_append, BitVec.getLsbD_or]
  interval_cases k <;> simp

/-- Settles O20: the status byte is the sum of its flags' weights, and unpacking inverts packing up to the forced bit 5. -/
theorem statusByteRoundTrip : Obligations.StatusByteRoundTrip :=
  ⟨asByte_loadByte, asByte_toNat, loadByte_asByte⟩

/-! ### The flag instructions -/

/-- Settles O21: each of the seven mnemonics is one `setP`. -/
theorem flagInstructionsWriteOneFlag : Obligations.FlagInstructionsWriteOneFlag := fun s =>
  ⟨exec_eq .clc s, exec_eq .sec s, exec_eq .cli s, exec_eq .sei s, exec_eq .clv s, exec_eq .cld s, exec_eq .sed s⟩

end Sys2Proof.Machine
end

section
/-! The adder and the compares (spec 42_arith R170-R176): the add core and the compare core on the machine, and subtraction as the add
core on the operand's complement. -/

namespace Sys2Proof.Machine

/-! ### Addition -/

/-- The operand's read keeps the registers, so the add core sees the ones from before it (R170, R171). -/
theorem addToA_readSrc (m : Byte) (o : Src) (s : State) :
    addToA m (readSrc o s).2 =
      { (readSrc o s).2 with
        cpu := { s.cpu with a := addResult s.cpu.a m s.cpu.p.c, p := s.cpu.p.addCore s.cpu.a m } } := by
  unfold addToA State.setA State.setP
  rw [readSrc_cpu]

/-- Settles O22: the add core's flags by `addCore_eq`, and V as signed overflow by `overflow_iff`. -/
theorem adcAddsWithCarry : Obligations.AdcAddsWithCarry := by
  intro i o s hop
  refine ⟨?_, overflow_iff s.cpu.a (readSrc o s).1 s.cpu.p.c⟩
  have hadc : exec i s = .next (addToA (readSrc o s).1 (readSrc o s).2) := by
    rw [exec_eq, hop]
    rfl
  rw [hadc, addToA_readSrc, addCore_eq]
  rfl

/-! ### Subtraction -/

/-- `A - m - borrow`, unbounded, the borrow being 1 when C is clear (R172). -/
def subDiff (a m : Byte) (c : Bool) : Int := (a.toNat : Int) - m.toNat - (1 - c.toNat : Nat)

/-- The complement of `m` is `255 - m`, so the total of the add core is the difference and 256. -/
theorem addTotal_not (a m : Byte) (c : Bool) : (addTotal a (~~~m) c : Int) = subDiff a m c + 256 := by
  have hnot : (~~~m).toNat = 255 - m.toNat := BitVec.toNat_not
  have hm : m.toNat < 256 := m.isLt
  have hc := c.toNat_le
  unfold addTotal subDiff
  omega

/-- Modulo 256 the total on a complement is the difference (R172). -/
theorem addResult_not (a m : Byte) (c : Bool) : addResult a (~~~m) c = BitVec.ofInt 8 (subDiff a m c) := by
  unfold addResult
  rw [← BitVec.ofInt_natCast, addTotal_not, BitVec.ofInt_add]
  exact BitVec.add_zero _

theorem toInt_not_eq (m : Byte) : (~~~m).toInt = -1 - m.toInt := by
  have hnot : (~~~m).toNat = 255 - m.toNat := BitVec.toNat_not
  have hm : m.toNat < 256 := m.isLt
  rw [BitVec.toInt_eq_toNat_cond, BitVec.toInt_eq_toNat_cond]
  split <;> split <;> omega

/-- Overflow of the complement's sum is overflow of the signed difference (R172). -/
theorem overflow_not_iff (a m : Byte) (c : Bool) :
    (a.msb = (~~~m).msb ∧ (addResult a (~~~m) c).msb ≠ a.msb) ↔
      a.toInt - m.toInt - (1 - c.toNat : Nat) < -128 ∨ 127 < a.toInt - m.toInt - (1 - c.toNat : Nat) := by
  have hc := c.toNat_le
  rw [overflow_iff, toInt_not_eq]
  omega

/-- The flags of the add core on a complement (R172). -/
theorem addCore_not_eq (p : Flags) (a m : Byte) :
    p.addCore a (~~~m) =
      { p with
        n := (BitVec.ofInt 8 (subDiff a m p.c)).msb
        v := decide (a.toInt - m.toInt - (1 - p.c.toNat : Nat) < -128 ∨ 127 < a.toInt - m.toInt - (1 - p.c.toNat : Nat))
        z := decide (subDiff a m p.c % 256 = 0)
        c := decide (m.toNat + (1 - p.c.toNat) ≤ a.toNat) } := by
  have htotal := addTotal_not a m p.c
  have hn : decide (128 ≤ addTotal a (~~~m) p.c % 256) = (BitVec.ofInt 8 (subDiff a m p.c)).msb := by
    rw [← addResult_not, BitVec.msb_eq_decide, addResult_toNat]
  have hz : addTotal a (~~~m) p.c % 256 = 0 ↔ subDiff a m p.c % 256 = 0 := by omega
  have hc : 255 < addTotal a (~~~m) p.c ↔ m.toNat + (1 - p.c.toNat) ≤ a.toNat := by
    unfold subDiff at htotal
    omega
  simp only [addCore_eq, hn, overflow_not_iff, hz, hc]

/-- Settles O23: SBC is the add core on the complement, whose result and flags are those of the difference. -/
theorem sbcSubtractsWithBorrow : Obligations.SbcSubtractsWithBorrow := by
  intro i o s hop
  have hsbc : exec i s = .next (addToA (~~~(readSrc o s).1) (readSrc o s).2) := by
    rw [exec_eq, hop]
    rfl
  rw [hsbc, addToA_readSrc, addResult_not, addCore_not_eq]
  rfl

/-! ### Compares -/

/-- A compare after the operand's read: the flags of the compare core, and the registers from before the read (R173). -/
theorem compare_readSrc (reg : Byte) (o : Src) (s : State) :
    (readSrc o s).2.setP (s.cpu.p.compare reg (readSrc o s).1) =
      { (readSrc o s).2 with
        cpu := { s.cpu with
          p := { s.cpu.p with
            n := decide (128 ≤ (reg.toNat + 256 - (readSrc o s).1.toNat) % 256)
            z := decide (reg = (readSrc o s).1)
            c := decide ((readSrc o s).1.toNat ≤ reg.toNat) } } } := by
  rw [compare_eq, State.setP, readSrc_cpu]

/-- Settles O24: the three compares are the compare core on A, X and Y. -/
theorem comparesSetCarryZeroNegative : Obligations.ComparesSetCarryZeroNegative := by
  intro i o s r result
  have hcore (reg : Byte) : .next (r.2.setP (s.cpu.p.compare reg r.1)) = result reg := congrArg _ (compare_readSrc reg o s)
  refine ⟨fun hop => ?cmp, fun hop => ?cpx, fun hop => ?cpy⟩
  case cmp => rw [exec_eq, hop, ← hcore, runOp, cmp, readSrc_cpu]
  case cpx => rw [exec_eq, hop, ← hcore, runOp, cpx, readSrc_cpu]
  case cpy => rw [exec_eq, hop, ← hcore, runOp, cpy, readSrc_cpu]

end Sys2Proof.Machine
end

section
/-! The logical operations (spec 43_logic R190-R193): writing a result to A, and the bit test, both after the operand's read. -/

namespace Sys2Proof.Machine

/-- The read keeps the registers, so only A, N and Z differ from before it (R190-R192). -/
theorem setANZ_readSrc (v : Byte) (o : Src) (s : State) :
    setANZ v (readSrc o s).2 =
      { (readSrc o s).2 with
        cpu := { s.cpu with a := v, p := { s.cpu.p with n := decide (128 ≤ v.toNat), z := decide (v.toNat = 0) } } } := by
  unfold setANZ State.setA State.setP
  rw [readSrc_cpu, setNZ_eq]

/-- Bit 6 of a byte: what is left below bit 7 is at least 64. -/
theorem getLsbD6_eq (v : Byte) : v.getLsbD 6 = decide (64 ≤ v.toNat % 128) := by
  rw [BitVec.getLsbD, Nat.testBit_eq_decide_div_mod_eq, decide_eq_decide]
  omega

/-- The flags of BIT as comparisons of numbers (R193). -/
theorem bitTest_eq (p : Flags) (a m : Byte) :
    p.bitTest a m =
      { p with
        n := decide (128 ≤ m.toNat)
        v := decide (64 ≤ m.toNat % 128)
        z := decide ((a &&& m).toNat = 0) } := by
  unfold Flags.bitTest
  simp only [getLsbD7_eq, getLsbD6_eq, byte_eq_zero]

/-- Settles O26: the three results go to A by `setANZ`, and BIT is the bit test on the flags alone. -/
theorem logicalOperations : Obligations.LogicalOperations := by
  intro i o m s r toA
  have htail (v : Byte) : .next (setANZ v r.2) = toA v := congrArg _ (setANZ_readSrc v o s)
  refine ⟨fun hop => ?and, fun hop => ?ora, fun hop => ?eor, fun hop => ?bit⟩
  case and => rw [exec_eq, hop, ← htail, runOp, andA, readSrc_cpu]
  case ora => rw [exec_eq, hop, ← htail, runOp, oraA, readSrc_cpu]
  case eor => rw [exec_eq, hop, ← htail, runOp, eorA, readSrc_cpu]
  case bit =>
    rw [exec_eq, hop, runOp, bitA, readMem_cpu, bitTest_eq, State.setP, readMem_cpu]
    rfl

end Sys2Proof.Machine
end

section
/-! The read-modify-writes (spec 44_shift_rmw R200-R206): each function as arithmetic on the byte, and the frame of R200 over any
function whose result is known as a number, on the accumulator and on memory. -/

namespace Sys2Proof.Machine

/-! ### The six functions -/

/-- ASL (R201). -/
theorem aslFn_eq (v : Byte) (c : Bool) : aslFn v c = (BitVec.ofNat 8 (2 * v.toNat % 256), decide (128 ≤ v.toNat)) := by
  rw [aslFn, shiftLeft_one_eq, getLsbD7_eq]

/-- LSR (R202). -/
theorem lsrFn_eq (v : Byte) (c : Bool) : lsrFn v c = (BitVec.ofNat 8 (v.toNat / 2), decide (v.toNat % 2 = 1)) := by
  rw [lsrFn, shiftRight_one_eq, getLsbD0_eq]

/-- ROL (R203). -/
theorem rolFn_eq (v : Byte) (c : Bool) :
    rolFn v c = (BitVec.ofNat 8 ((2 * v.toNat + c.toNat) % 256), decide (128 ≤ v.toNat)) :=
  Prod.ext (rolFn_fst v c) (getLsbD7_eq v)

/-- ROR (R204). -/
theorem rorFn_eq (v : Byte) (c : Bool) :
    rorFn v c = (BitVec.ofNat 8 (v.toNat / 2 + 128 * c.toNat), decide (v.toNat % 2 = 1)) :=
  Prod.ext (rorFn_fst v c) (getLsbD0_eq v)

/-- INC (R205). -/
theorem incFn_eq (v : Byte) (c : Bool) : incFn v c = (BitVec.ofNat 8 ((v.toNat + 1) % 256), c) := by
  rw [incFn, ← byteSucc_toNat, BitVec.ofNat_toNat, BitVec.setWidth_eq]

/-- DEC (R206): taking 1 away is adding 255 modulo 256. -/
theorem decFn_eq (v : Byte) (c : Bool) : decFn v c = (BitVec.ofNat 8 ((v.toNat + 255) % 256), c) := by
  have hpred : (v - 1).toNat = (v.toNat + 255) % 256 := by rw [BitVec.toNat_sub, Nat.add_comm]; rfl
  rw [decFn, ← hpred, BitVec.ofNat_toNat, BitVec.setWidth_eq]

/-- The bits that ROR leaves below the carry it shifts in keep the result within a byte. -/
theorem half_add_carry_lt (v : Byte) (c : Bool) : v.toNat / 2 + 128 * c.toNat < 256 := by
  have hv : v.toNat < 256 := v.isLt
  have hc := c.toNat_le
  omega

/-! ### The frame -/

/-- Read-modify-write on the accumulator, for a function whose result is the number `r` and whose carry is `out` (R200). -/
theorem rmwAcc_eq {f : Byte → Bool → Byte × Bool} {r : Nat} {out : Bool} (s : State)
    (hf : f s.cpu.a s.cpu.p.c = (BitVec.ofNat 8 r, out)) (hr : r < 256) :
    rmwAcc f s = { s with
      cpu := { s.cpu with
        a := BitVec.ofNat 8 r
        p := { s.cpu.p with n := decide (128 ≤ r), z := decide (r = 0), c := out } } } := by
  unfold rmwAcc
  simp only [hf, setNZ_ofNat _ r hr]
  rfl

/-- Read-modify-write on memory, for a function whose result is the number `r` and whose carry is `out`: the two bus accesses keep the
registers, so the flags written are over those from before (R200). -/
theorem rmwMem_eq {f : Byte → Bool → Byte × Bool} {r : Nat} {out : Bool} (m : MemMode) (s : State)
    (hf : f (busRead (effAddr m s).1 s).1 s.cpu.p.c = (BitVec.ofNat 8 r, out)) (hr : r < 256) :
    rmwMem m f s = { busWrite (effAddr m s).1 (BitVec.ofNat 8 r) (busRead (effAddr m s).1 s).2 with
      cpu := { s.cpu with p := { s.cpu.p with n := decide (128 ≤ r), z := decide (r = 0), c := out } } } := by
  unfold rmwMem State.setP
  simp only [effAddr_snd, busRead_cpu, busWrite_cpu, hf, setNZ_ofNat _ r hr]

/-! ### The instructions -/

/-- Settles O27: each instruction is the accumulator's frame over its function. -/
theorem accumulatorShifts : Obligations.AccumulatorShifts := by
  intro s a carry toA
  have ha : a < 256 := s.cpu.a.isLt
  have hframe {f : Byte → Bool → Byte × Bool} {r : Nat} {out : Bool} (hf : f s.cpu.a s.cpu.p.c = (BitVec.ofNat 8 r, out))
      (hr : r < 256) : .next (rmwAcc f s) = toA r out := congrArg _ (rmwAcc_eq s hf hr)
  refine ⟨?asl, ?lsr, ?rol, ?ror⟩
  case asl => exact hframe (aslFn_eq _ _) (Nat.mod_lt _ (by decide))
  case lsr => exact hframe (lsrFn_eq _ _) (by omega)
  case rol => exact hframe (rolFn_eq _ _) (Nat.mod_lt _ (by decide))
  case ror => exact hframe (rorFn_eq _ _) (half_add_carry_lt _ _)

/-- Settles O28: each mnemonic is the memory frame over its function, and INC and DEC hand back the old C. -/
theorem memoryReadModifyWrites : Obligations.MemoryReadModifyWrites := by
  intro i m s ea r v carry written
  have hv : v < 256 := r.1.isLt
  have hframe {o : Op} {f : Byte → Bool → Byte × Bool} {result : Nat} {out : Bool} (hrun : runOp o s = rmwMem m f s)
      (hf : f r.1 s.cpu.p.c = (BitVec.ofNat 8 result, out)) (hr : result < 256) (hop : i.op = o) :
      exec i s = written result out := by
    rw [exec_eq, hop, hrun]
    exact congrArg _ (rmwMem_eq m s hf hr)
  refine ⟨?asl, ?lsr, ?rol, ?ror, ?inc, ?dec⟩
  case asl => exact hframe rfl (aslFn_eq _ _) (Nat.mod_lt _ (by decide))
  case lsr => exact hframe rfl (lsrFn_eq _ _) (by omega)
  case rol => exact hframe rfl (rolFn_eq _ _) (Nat.mod_lt _ (by decide))
  case ror => exact hframe rfl (rorFn_eq _ _) (half_add_carry_lt _ _)
  case inc => exact hframe rfl (incFn_eq _ _) (Nat.mod_lt _ (by decide))
  case dec => exact hframe rfl (decFn_eq _ _) (Nat.mod_lt _ (by decide))

end Sys2Proof.Machine
end

section
/-! Loads, stores, transfers, increments and NOP (spec 45_load_store_transfer R220-R236): the write of a register with its flags, and the
store as one bus write at the effective address. -/

namespace Sys2Proof.Machine

/-! ### A register with its flags -/

/-- Writing A with N and Z changes nothing else (R220, R228, R229). -/
theorem setANZ_eq (v : Byte) (s : State) :
    setANZ v s =
      { s with
        cpu := { s.cpu with a := v, p := { s.cpu.p with n := decide (128 ≤ v.toNat), z := decide (v.toNat = 0) } } } := by
  rw [setANZ, State.setP, setNZ_eq]
  rfl

/-- Writing X with N and Z changes nothing else (R221, R226, R230, R232, R234). -/
theorem setXNZ_eq (v : Byte) (s : State) :
    setXNZ v s =
      { s with
        cpu := { s.cpu with x := v, p := { s.cpu.p with n := decide (128 ≤ v.toNat), z := decide (v.toNat = 0) } } } := by
  rw [setXNZ, State.setP, setNZ_eq]
  rfl

/-- Writing Y with N and Z changes nothing else (R222, R227, R233, R235). -/
theorem setYNZ_eq (v : Byte) (s : State) :
    setYNZ v s =
      { s with
        cpu := { s.cpu with y := v, p := { s.cpu.p with n := decide (128 ≤ v.toNat), z := decide (v.toNat = 0) } } } := by
  rw [setYNZ, State.setP, setNZ_eq]
  rfl

/-! ### Loads -/

/-- Settles O29: each load writes its register after the operand's read, which keeps the registers (`readSrc_cpu`). -/
theorem loadsSetRegisterAndFlags : Obligations.LoadsSetRegisterAndFlags := by
  intro i o s r p
  refine ⟨fun hop => ?lda, fun hop => ?ldx, fun hop => ?ldy⟩
  case lda => rw [exec_eq, hop, runOp, lda, setANZ_eq, readSrc_cpu]
  case ldx => rw [exec_eq, hop, runOp, ldx, setXNZ_eq, readSrc_cpu]
  case ldy => rw [exec_eq, hop, runOp, ldy, setYNZ_eq, readSrc_cpu]

/-! ### Stores -/

/-- A store is one bus write at the effective address, and the target is not read (R144). -/
theorem storeTo_eq (m : MemMode) (v : Byte) (s : State) : storeTo m v s = busWrite (effAddr m s).1 v s := by
  unfold storeTo
  dsimp only
  rw [effAddr_snd]

/-- Settles O30: each store is the bus write of its register, and the decoder sends that to storage, to one of the three devices, or
nowhere. -/
theorem storesGoWhereTheDecoderSends : Obligations.StoresGoWhereTheDecoderSends := by
  intro i m s v hop ea
  have hstore : exec i s = .next (busWrite ea v s) := by
    obtain ⟨hop, rfl⟩ | ⟨hop, rfl⟩ | ⟨hop, rfl⟩ := hop <;> rw [exec_eq, hop, runOp, storeTo_eq]
  rw [hstore]
  refine ⟨fun hplain => ?plain, fun hm hlo hhi => ?window, fun hm ha => ?spriteDma, fun hm ha => ?input, fun hm ha hrom => ?rom⟩
  case plain =>
    rw [busWrite_plain ea v s hplain]
    rfl
  case window =>
    rw [busWrite_window s ea v hm ((inGfxWindow_iff ea).mpr ⟨hlo, hhi⟩), gfxOffset_eq]
    rfl
  case spriteDma => rw [ha, busWrite_spriteDma s v hm]
  case input => rw [ha, busWrite_input s hm]
  case rom =>
    obtain ⟨-, hwrite⟩ := cartridgeWindow s ea v hm ha
    rw [hwrite, hrom, if_neg (by decide)]

/-! ### Transfers, increments and NOP -/

/-- Adding 1 wraps within 8 bits (R232, R233). -/
theorem byteSucc_eq (v : Byte) : v + 1 = BitVec.ofNat 8 ((v.toNat + 1) % 256) := congrArg Prod.fst (incFn_eq v false)

/-- Taking 1 away wraps within 8 bits (R234, R235). -/
theorem bytePred_eq (v : Byte) : v - 1 = BitVec.ofNat 8 ((v.toNat + 255) % 256) := congrArg Prod.fst (decFn_eq v false)

/-- Settles O31: each instruction but TXS and NOP writes one register with its flags. -/
theorem transfersAndIncrements : Obligations.TransfersAndIncrements := by
  intro s p up down
  have hx {v w : Byte} (h : v = w) : Host.Outcome.next (setXNZ v s) =
      (.next { s with cpu := { s.cpu with x := w, p := p w } } : Host.Outcome State Fault Refusal) :=
    h ▸ congrArg _ (setXNZ_eq v s)
  have hy {v w : Byte} (h : v = w) : Host.Outcome.next (setYNZ v s) =
      (.next { s with cpu := { s.cpu with y := w, p := p w } } : Host.Outcome State Fault Refusal) :=
    h ▸ congrArg _ (setYNZ_eq v s)
  have ha (v : Byte) : Host.Outcome.next (setANZ v s) =
      (.next { s with cpu := { s.cpu with a := v, p := p v } } : Host.Outcome State Fault Refusal) :=
    congrArg _ (setANZ_eq v s)
  refine ⟨?tax, ?tay, ?txa, ?tya, ?tsx, ?txs, ?inx, ?iny, ?dex, ?dey, ?nop⟩
  case tax => exact hx rfl
  case tay => exact hy rfl
  case txa => exact ha s.cpu.x
  case tya => exact ha s.cpu.y
  case tsx => exact hx rfl
  case txs => rfl
  case inx => exact hx (byteSucc_eq s.cpu.x)
  case iny => exact hy (byteSucc_eq s.cpu.y)
  case dex => exact hx (bytePred_eq s.cpu.x)
  case dey => exact hy (bytePred_eq s.cpu.y)
  case nop => rfl

end Sys2Proof.Machine
end

section
/-! The stack (spec 46_stack R250-R256): a push is a store to page 1 and a pull a load from it, at a number in both bus modes, and each of
the four instructions is one of them. -/

namespace Sys2Proof.Machine

/-! ### Push and pull -/

/-- The byte of a push goes to page 1 and S wraps within 8 bits (R250). -/
theorem push_page1 (v : Byte) (s : State) :
    push v s = { s with
      mem := s.mem.write (0x100 + s.cpu.s.toNat) v
      cpu := { s.cpu with s := BitVec.ofNat 8 ((s.cpu.s.toNat + 255) % 256) } } := by
  rw [push_eq, State.storeByte, busIndex_stack, bytePred_eq]
  rfl

/-- The byte of a pull comes from page 1, and only S changes, within 8 bits (R251). -/
theorem pull_page1 (s : State) :
    pull s = (s.mem.read (0x100 + (s.cpu.s.toNat + 1) % 256),
      { s with cpu := { s.cpu with s := BitVec.ofNat 8 ((s.cpu.s.toNat + 1) % 256) } }) := by
  rw [pull_eq, State.byteAt, busIndex_stack, byteSucc_toNat, byteSucc_eq]
  rfl

/-- The pull reads the index that the push wrote, and brings S back (R256). -/
theorem pull_push (v : Byte) (s : State) :
    pull (push v s) = (v, { s with mem := s.mem.write (0x100 + s.cpu.s.toNat) v }) := by
  have hs : s.cpu.s - 1 + 1 = s.cpu.s := BitVec.sub_add_cancel _ _
  rw [push_eq, pull_eq, State.setS_s, hs, setS_byteAt, storeByte_byteAt, if_pos rfl, State.storeByte, busIndex_stack]
  rfl

/-! ### The instructions -/

/-- Settles O32: PHA and PHP are the push of A and of the status with B set, PLA and PLP write A or the flags from the pull. -/
theorem stackInstructions : Obligations.StackInstructions := by
  intro s top
  refine ⟨?pha, ?php, ?pla, ?plp, fun v => pull_push v s⟩
  case pha => rw [exec_eq, Instr.op, runOp, push_page1]
  case php => rw [exec_eq, Instr.op, runOp, push_page1, pushedByBreak_eq]
  case pla => rw [exec_eq, Instr.op, runOp, setANZ_eq, pull_page1]
  case plp =>
    rw [exec_eq, Instr.op, runOp, pullStatus, pull_page1]
    rfl

end Sys2Proof.Machine
end

section
/-! The control transfers (spec 47_control R260-R273): a branch adds its displacement to PC as a signed number, and a call, a return or an
entry is what its pushes or pulls do at numbers in page 1. -/

namespace Sys2Proof.Machine

/-! ### Moving S and splitting PC, as numbers -/

/-- S moved up wraps within 8 bits (R251). -/
theorem byteAdd_toNat (b : Byte) (k : Nat) : (b + BitVec.ofNat 8 k).toNat = (b.toNat + k) % 256 := by
  rw [BitVec.toNat_add, BitVec.toNat_ofNat, Nat.add_mod_mod]

/-- S moved down wraps within 8 bits (R250). -/
theorem byteSub_toNat (b : Byte) {k : Nat} (hk : k < 256) : (b - BitVec.ofNat 8 k).toNat = (b.toNat + (256 - k)) % 256 := by
  rw [BitVec.toNat_sub, BitVec.toNat_ofNat, Nat.mod_eq_of_lt hk, Nat.add_comm]

theorem byteAdd_eq (b : Byte) (k : Nat) : b + BitVec.ofNat 8 k = BitVec.ofNat 8 ((b.toNat + k) % 256) := by
  rw [← byteAdd_toNat, BitVec.ofNat_toNat, BitVec.setWidth_eq]

theorem byteSub_eq (b : Byte) {k : Nat} (hk : k < 256) : b - BitVec.ofNat 8 k = BitVec.ofNat 8 ((b.toNat + (256 - k)) % 256) := by
  rw [← byteSub_toNat b hk, BitVec.ofNat_toNat, BitVec.setWidth_eq]

theorem hiByte_eq (w : Word) : hiByte w = BitVec.ofNat 8 (w.toNat / 256) := by
  rw [← hiByte_toNat, BitVec.ofNat_toNat, BitVec.setWidth_eq]

theorem loByte_eq (w : Word) : loByte w = BitVec.ofNat 8 w.toNat :=
  BitVec.eq_of_toNat_eq (loByte_toNat w)

/-! ### Branches -/

/-- The displacement is a signed number added to the next instruction's address, modulo 0x10000 (R141). -/
theorem branchTarget_eq (pc : Word) (d : Byte) : branchTarget pc d = BitVec.ofInt 16 ((pc.toNat : Int) + d.toInt) := by
  rw [BitVec.ofInt_add, BitVec.ofInt_natCast, BitVec.ofNat_toNat, BitVec.setWidth_eq]
  rfl

/-- A branch writes PC alone, by its condition (R260). -/
theorem branch_of_branchTaken_eq {sel : BitVec 2} {exp taken : Bool} {s : State} (d : Byte)
    (h : s.cpu.p.branchTaken sel exp = taken) :
    branch sel exp d s = { s with
      cpu := { s.cpu with
        pc := if taken then BitVec.ofInt 16 ((s.cpu.pc.toNat : Int) + d.toInt) else s.cpu.pc } } := by
  rw [branch, h, branchTarget_eq]
  cases taken <;> rfl

/-- Settles O33: the selector names the flag, and a flag is compared with the expected value. -/
theorem branchesTestOneFlag : Obligations.BranchesTestOneFlag := by
  intro s d after
  have hbranch {i : Instr} {sel : BitVec 2} {exp taken : Bool} (hi : runOp i.op s = branch sel exp d s)
      (h : s.cpu.p.branchTaken sel exp = taken) : exec i s = after taken := by
    rw [exec_eq, hi, branch_of_branchTaken_eq d h]
  refine ⟨?bpl, ?bmi, ?bvc, ?bvs, ?bcc, ?bcs, ?bne, ?beq⟩
  case bpl => exact hbranch rfl (beq_false _)
  case bmi => exact hbranch rfl (beq_true _)
  case bvc => exact hbranch rfl (beq_false _)
  case bvs => exact hbranch rfl (beq_true _)
  case bcc => exact hbranch rfl (beq_false _)
  case bcs => exact hbranch rfl (beq_true _)
  case bne => exact hbranch rfl (beq_false _)
  case beq => exact hbranch rfl (beq_true _)

/-! ### Calls and returns -/

/-- A 16-bit push is two stores to page 1, high byte first, and S wraps within 8 bits (R68). -/
theorem push16_page1 (w : Word) (s : State) :
    push16 w s = { s with
      mem := (s.mem.write (0x100 + s.cpu.s.toNat) (hiByte w)).write (0x100 + (s.cpu.s.toNat + 255) % 256) (loByte w)
      cpu := { s.cpu with s := BitVec.ofNat 8 ((s.cpu.s.toNat + 254) % 256) } } := by
  have h1 : (s.cpu.s - 1).toNat = (s.cpu.s.toNat + 255) % 256 := byteSub_toNat _ (by decide)
  have h2 : s.cpu.s - 2 = BitVec.ofNat 8 ((s.cpu.s.toNat + 254) % 256) := byteSub_eq _ (by decide)
  rw [push16_eq, State.storeByte, State.storeByte, busIndex_stack, busIndex_stack, h1, h2]
  rfl

/-- A 16-bit pull is two loads from page 1, low byte first, and only S changes, within 8 bits (R271). -/
theorem pull16_page1 (s : State) :
    pull16 s = (mkWord (s.mem.read (0x100 + (s.cpu.s.toNat + 2) % 256)) (s.mem.read (0x100 + (s.cpu.s.toNat + 1) % 256)),
      { s with cpu := { s.cpu with s := BitVec.ofNat 8 ((s.cpu.s.toNat + 2) % 256) } }) := by
  have h2 : (s.cpu.s + 2).toNat = (s.cpu.s.toNat + 2) % 256 := byteAdd_toNat _ _
  have hs : s.cpu.s + 2 = BitVec.ofNat 8 ((s.cpu.s.toNat + 2) % 256) := byteAdd_eq _ _
  rw [pull16_eq, State.byteAt, State.byteAt, busIndex_stack, busIndex_stack, h2, byteSucc_toNat, hs]
  rfl

/-- A word whose two bytes lie where a push of it from `sp` puts them is pulled back, whatever the rest of the state, and S is `sp`. -/
theorem pull16_of_stacked {u : State} {sp : Byte} {w : Word} (hs : u.cpu.s = sp - 2)
    (hhi : u.mem.read (0x100 + sp.toNat) = hiByte w) (hlo : u.mem.read (0x100 + (sp.toNat + 255) % 256) = loByte w) :
    pull16 u = (w, u.setS sp) := by
  have h1 : u.cpu.s + 1 = sp - 1 := by rw [hs]; bv_omega
  have h2 : u.cpu.s + 2 = sp := by rw [hs, BitVec.sub_add_cancel]
  have hsp : (sp - 1).toNat = (sp.toNat + 255) % 256 := byteSub_toNat _ (by decide)
  rw [pull16_eq, h1, h2, State.byteAt, State.byteAt, busIndex_stack, busIndex_stack, hsp, hhi, hlo, mkWord_hiByte_loByte]

/-- The bytes that a 16-bit push leaves on the stack. -/
theorem push16_stacked (w : Word) (s : State) :
    (push16 w s).mem.read (0x100 + s.cpu.s.toNat) = hiByte w ∧
      (push16 w s).mem.read (0x100 + (s.cpu.s.toNat + 255) % 256) = loByte w := by
  have hne : 0x100 + (s.cpu.s.toNat + 255) % 256 ≠ 0x100 + s.cpu.s.toNat := by
    have := s.cpu.s.isLt
    omega
  rw [push16_page1]
  exact ⟨(Memory.read_write_other _ _ hne).trans (Memory.read_write_same _ _ _), Memory.read_write_same _ _ _⟩

/-- The address that RTS goes to: the pulled word plus one, within 16 bits (R271). -/
theorem mkWord_succ_eq (hi lo : Byte) : mkWord hi lo + 1 = BitVec.ofNat 16 ((256 * hi.toNat + lo.toNat + 1) % 65536) := by
  apply BitVec.eq_of_toNat_eq
  rw [BitVec.toNat_add, mkWord_toNat, BitVec.toNat_ofNat, Nat.mod_mod]
  rfl

/-- Settles O35: JSR is the push of PC minus one, RTS the pull and one more. -/
theorem subroutineCallAndReturn : Obligations.SubroutineCallAndReturn := by
  intro s w ret at1 at2
  constructor
  · have hret : (s.cpu.pc - 1).toNat = ret := by rw [BitVec.toNat_sub, Nat.add_comm]; rfl
    rw [exec_eq, Instr.op, runOp, push16_page1, hiByte_eq, loByte_eq, hret, State.setPc]
  · rw [exec_eq, Instr.op, runOp, pull16_page1, mkWord_succ_eq, State.setPc]

/-- Settles O36: the return address is still on the stack, so the pull takes it back, and one more is the address after the JSR. -/
theorem returnFollowsTheCall : Obligations.ReturnFollowsTheCall := by
  intro s t u w hcall hs hstack
  obtain rfl : (push16 (s.cpu.pc - 1) s).setPc w = t := Host.Outcome.next.inj ((exec_eq (.jsr w) s).symm.trans hcall)
  obtain ⟨hhi, hlo⟩ := push16_stacked (s.cpu.pc - 1) s
  have hhi' : u.mem.read (0x100 + s.cpu.s.toNat) = hiByte (s.cpu.pc - 1) := by
    have h0 := hstack 0 (by decide)
    rw [Nat.sub_zero, Nat.add_mod_right, Nat.mod_eq_of_lt s.cpu.s.isLt] at h0
    exact h0.trans hhi
  have hlo' : u.mem.read (0x100 + (s.cpu.s.toNat + 255) % 256) = loByte (s.cpu.pc - 1) := (hstack 1 (by decide)).trans hlo
  have hs' : u.cpu.s = s.cpu.s - 2 := by rw [hs, State.setPc_s, push16_cpu]
  rw [exec_eq, Instr.op, runOp, pull16_of_stacked hs' hhi' hlo', BitVec.sub_add_cancel]
  rfl

/-! ### The software interrupt -/

/-- An interrupt entry through a vector of the cartridge window: three stores to page 1, I set, and PC from the vector (R310). -/
theorem interruptEntry_page1 (vec : Word) (brk : Bool) (s : State) (h : 0x8000 ≤ vec.toNat) (h1 : 0x8000 ≤ (vec + 1).toNat) :
    interruptEntry vec brk s = { s with
      mem := ((s.mem.write (0x100 + s.cpu.s.toNat) (BitVec.ofNat 8 (s.cpu.pc.toNat / 256))).write
        (0x100 + (s.cpu.s.toNat + 255) % 256) (BitVec.ofNat 8 s.cpu.pc.toNat)).write
        (0x100 + (s.cpu.s.toNat + 254) % 256) (pushedStatus s.cpu.p brk)
      cpu := { s.cpu with
        s := BitVec.ofNat 8 ((s.cpu.s.toNat + 253) % 256)
        p := { s.cpu.p with i := true }
        pc := BitVec.ofNat 16 (256 * (s.byteAt (vec + 1)).toNat + (s.byteAt vec).toNat) } } := by
  have hs1 : (s.cpu.s - 1).toNat = (s.cpu.s.toNat + 255) % 256 := byteSub_toNat _ (by decide)
  have hs2 : (s.cpu.s - 2).toNat = (s.cpu.s.toNat + 254) % 256 := byteSub_toNat _ (by decide)
  have hs3 : s.cpu.s - 3 = BitVec.ofNat 8 ((s.cpu.s.toNat + 253) % 256) := byteSub_eq _ (by decide)
  rw [interruptEntry_eq vec brk s h h1, entered, mkWord_eq, hs3]
  simp only [State.storeByte, State.setMem, busIndex_stack, hs1, hs2, hiByte_eq, loByte_eq]
  rfl

/-- A return from an interrupt: three loads from page 1, every flag but B, and PC as it was pushed (R272). -/
theorem interruptReturn_page1 (s : State) :
    interruptReturn s = { s with
      cpu := { s.cpu with
        s := BitVec.ofNat 8 ((s.cpu.s.toNat + 3) % 256)
        p := s.cpu.p.pulled (s.mem.read (0x100 + (s.cpu.s.toNat + 1) % 256))
        pc := BitVec.ofNat 16
          (256 * (s.mem.read (0x100 + (s.cpu.s.toNat + 3) % 256)).toNat +
            (s.mem.read (0x100 + (s.cpu.s.toNat + 2) % 256)).toNat) } } := by
  have hnext (k : Nat) : ((BitVec.ofNat 8 ((s.cpu.s.toNat + 1) % 256)).toNat + k) % 256 = (s.cpu.s.toNat + (1 + k)) % 256 := by
    rw [BitVec.toNat_ofNat, Nat.mod_mod, Nat.mod_add_mod, Nat.add_assoc]
  rw [interruptReturn, pullStatus, pull_page1, State.setP, pull16_page1]
  simp only [hnext, mkWord_eq]
  rfl

/-- Settles O37: BRK is the entry from the address past the padding byte, RTI the return. -/
theorem softwareInterruptAndReturn : Obligations.SoftwareInterruptAndReturn := by
  intro s ret at1 at2 at3
  constructor
  · have hret : (s.cpu.pc + 1).toNat = ret := BitVec.toNat_add _ _
    rw [exec_eq, Instr.op, runOp, interruptEntry_page1 _ _ _ (by decide) (by decide), State.setPc_pc, hret, pushedStatus,
      if_pos rfl, pushedByBreak_eq]
    rfl
  · rw [exec_eq, Instr.op, runOp, interruptReturn_page1]
    rfl

end Sys2Proof.Machine
end

section
/-! What a step answers and what it records (spec 60_exceptions R300-R302, R343-R345): it is never refused, it answers a fault only in a
faulted machine, and it records one only for an opcode byte without a row. -/

namespace Sys2Proof.Machine

/-! ### The answer of a step -/

/-- An orchestrator step answers a next state, whatever it fetches: no instruction refuses or faults (R341, R342). -/
theorem orchestratorStep_next (s : State) : ∃ t, orchestratorStep s = .next t := by
  unfold orchestratorStep runOneInstruction
  split
  · exact ⟨s, rfl⟩
  · cases fetchInstr s with
    | fatal t =>
      dsimp only
      split <;> exact ⟨_, rfl⟩
    | instr op i t =>
      dsimp only
      rw [exec_eq]
      dsimp only
      split <;> exact ⟨_, rfl⟩

theorem step_faulted {s : State} {f : Fault} (h : s.fault = some f) : step s = .fault f := by
  unfold step
  rw [h]

/-- A machine without a fault has a next state. -/
theorem step_next {s : State} (h : s.fault = none) : ∃ t, step s = .next t := by
  unfold step
  rw [h]
  dsimp only
  split
  · exact orchestratorStep_next s
  · exact orchestratorStep_next _
  all_goals exact ⟨_, rfl⟩

/-! ### The fault record -/

@[simp] theorem addCycles_fault (n : Nat) (s : State) : (addCycles n s).fault = s.fault := rfl

theorem catchUp_fault (before : Nat) (s : State) : (catchUp before s).fault = s.fault := by
  unfold catchUp
  split <;> exact (advance_frame _ _).1

/-- No host move raises or clears a fault (R29, R343). -/
theorem hostMove_fault (m : HostMove) (s : State) : (hostMove m s).fault = s.fault := by
  cases m
  case reset => exact (AccessesOnly.resetCpu s).fault_eq
  case nmi => exact (nmiEntry_frame s).2.1
  case irq =>
    obtain he | he := irqEntry_cases s <;> rw [hostMove, he]
    rw [addCycles_fault]
    exact (AccessesOnly.interruptEntry irqVector false s).fault_eq
  all_goals rfl

/-- `t` holds the record of an opcode byte without a row, read at the program counter of `s` (R302). -/
def RecordsIllegalOpcode (s t : State) : Prop :=
  ∃ k info, opcodeForm (busRead s.cpu.pc s).1 = .error k ∧ t.fault = some (k.record info) ∧ info.addr = s.cpu.pc ∧
    info.opcode = (busRead s.cpu.pc s).1

/-- Only the fetch of an opcode byte without a row makes a record (R104). -/
theorem OrchestratorEffect.fault_eq_or {s t : State} (h : OrchestratorEffect s t) :
    t.fault = s.fault ∨ RecordsIllegalOpcode s t := by
  cases h with
  | idle => exact .inl rfl
  | faulted h =>
    obtain ⟨k, hk, rfl⟩ := fetchInstr_fatal s t h
    rw [fetch8_eq] at hk ⊢
    exact .inr ⟨k, _, hk, rfl, rfl, rfl⟩
  | @ran op i u h =>
    rw [catchUp_fault, addCycles_fault]
    exact .inl ((AccessesOnly.fetchInstr h).trans (AccessesOnly.runOp i.op u)).fault_eq

/-- The byte that a bus read gives does not depend on the host's moves. -/
theorem busRead_fst_setHostMoves (a : Word) (s : State) (l : List HostMove) :
    (busRead a (s.setHostMoves l)).1 = (busRead a s).1 := by
  unfold busRead
  show (if s.cfg.busMode = .flat then _ else _ : Byte × State).1 = _
  split
  · rfl
  split
  · unfold gregRead
    split <;> rfl
  split <;> rfl

/-- A step that leaves a fault record has read the byte that the record names (R300-R302). -/
theorem recordsIllegalOpcode_of_step {s t : State} {f : Fault} (h : step s = .next t) (hf : t.fault = some f) :
    RecordsIllegalOpcode s t := by
  have hs := fault_none_of_step h
  have unfaulted : t.fault ≠ s.fault := by
    rw [hf, hs]
    exact Option.some_ne_none f
  obtain ⟨l, ⟨m, rfl⟩ | heffect⟩ := step_cases h
  · exact absurd (hostMove_fault m _) unfaulted
  · obtain hsame | hrecord := heffect.fault_eq_or
    · exact absurd hsame unfaulted
    · unfold RecordsIllegalOpcode at hrecord ⊢
      rwa [State.setHostMoves_cpu, busRead_fst_setHostMoves] at hrecord

/-- Settles O11: an unfaulted machine steps to a next state, and the byte that a new record names is one of R104's, which decides the
kind (`opcodeForm_eq_error`). -/
theorem onlyIllegalOpcodesStopTheMachine : Obligations.OnlyIllegalOpcodesStopTheMachine := by
  refine ⟨fun s r h => ?refused, fun s f h => ?fault, fun s t f h hf => ?record⟩
  case refused =>
    cases hs : s.fault with
    | none =>
      obtain ⟨t, ht⟩ := step_next hs
      rw [ht] at h
      cases h
    | some f =>
      rw [step_faulted hs] at h
      cases h
  case fault =>
    cases hs : s.fault with
    | none =>
      obtain ⟨t, ht⟩ := step_next hs
      rw [ht] at h
      cases h
    | some g =>
      rw [step_faulted hs] at h
      cases h
      rfl
  case record =>
    obtain ⟨k, info, hk, hrec, haddr, hop⟩ := recordsIllegalOpcode_of_step h hf
    obtain ⟨hfatal, hkind⟩ := opcodeForm_eq_error.mp hk
    obtain rfl : k.record info = f := Option.some.inj (hrec.symm.trans hf)
    rw [← hop] at hfatal hkind
    refine ⟨info, haddr, hop, ?_⟩
    by_cases h89 : info.opcode = 0x89
    · rw [if_pos h89] at hkind
      exact .inl ⟨congrArg (·.record info) hkind, h89⟩
    · rw [if_neg h89] at hkind
      exact .inr ⟨congrArg (·.record info) hkind, h89, hfatal⟩

theorem nmiEntry_faulted {s : State} {f : Fault} (h : s.fault = some f) : nmiEntry s = s := if_pos (Option.isSome_of_eq_some h)

theorem irqEntry_faulted {s : State} {f : Fault} (h : s.fault = some f) : irqEntry s = s := if_pos (Option.isSome_of_eq_some h)

theorem resetCpu_faulted {s : State} {f : Fault} (h : s.fault = some f) : resetCpu s = s := if_pos (Option.isSome_of_eq_some h)

theorem advance_faulted {s : State} {f : Fault} (n : Nat) (h : s.fault = some f) : advance n s = s :=
  if_pos (Option.isSome_of_eq_some h)

/-- Settles O10: each entry point tests the fault record first. -/
theorem faultedMachineIsStuck : Obligations.FaultedMachineIsStuck := fun _ _ h =>
  ⟨step_faulted h, nmiEntry_faulted h, irqEntry_faulted h, resetCpu_faulted h, fun n => advance_faulted n h⟩

/-! ### The host's moves -/

theorem step_of_hostMoves_nil {s : State} (hf : s.fault = none) (hm : s.hostMoves = []) : step s = orchestratorStep s := by
  simp only [step, hf, hm]

/-- What a step answers for the move at the head of the queue, by move: the move acts in the state with it consumed, but for `stop`,
which stays (R343, R344). -/
def answerToMove (s : State) (rest : List HostMove) : HostMove → Host.Outcome State Fault Refusal
  | .proceed => orchestratorStep (s.setHostMoves rest)
  | .stop => .next s
  | m => .next (hostMove m (s.setHostMoves rest))

theorem step_of_hostMoves_cons {s : State} {m : HostMove} {rest : List HostMove} (hf : s.fault = none)
    (hm : s.hostMoves = m :: rest) : step s = answerToMove s rest m := by
  unfold step
  rw [hf, hm]
  cases m <;> rfl

/-- Settles O12: each clause is what the head of the queue selects, and a halted orchestrator step changes nothing. -/
theorem hostMovesActBetweenSteps : Obligations.HostMovesActBetweenSteps := by
  intro s rest hf
  refine ⟨fun hm => ?reset, fun hm => ?nmi, fun hm => ?irq, fun hm => ?toggleHalt, fun hm => ?proceed, fun hm => ?stop,
    fun hm hh => ?idle, fun hm hh => ?proceedHalted⟩
  case idle => exact (step_of_hostMoves_nil hf hm).trans (orchestratorStep_halted s hh)
  case proceedHalted => exact (step_of_hostMoves_cons hf hm).trans (orchestratorStep_halted (s.setHostMoves rest) hh)
  all_goals exact step_of_hostMoves_cons hf hm

end Sys2Proof.Machine
end

section
/-! The timing FSM (spec 60_exceptions R320, R321, R324, R325) and the advance after an instruction (R341): the events of a scanline, the
counters after any number of dots, and an advance split in two. -/

namespace Sys2Proof.Machine

/-! ### The events of a scanline -/

/-- Control bit 7 as a number (R330). -/
theorem Gfx.nmiEnabled_eq (g : Gfx) : g.nmiEnabled = decide (128 ≤ g.ctrl.toNat) := getLsbD7_eq g.ctrl

/-- Vertical blank begins: the flag is set and the frame handed to the host (R321, R324). -/
def State.enterVblank (s : State) : State := (s.setGfx { s.gfx with vblank := true }).countFrame

theorem onScanline_241 (s : State) :
    onScanline 241 s = if s.gfx.nmiEnabled then nmiEntry s.enterVblank else s.enterVblank := rfl

/-- Settles O54: each line is a branch of `onScanline`, the last of them for every line without an event. -/
theorem scanlineEvents : Obligations.ScanlineEvents := by
  intro line s
  refine ⟨rfl, rfl, ?vblank, rfl, fun h => ?other⟩
  case vblank =>
    rw [onScanline_241]
    simp only [Gfx.nmiEnabled_eq, decide_eq_true_eq]
    rfl
  case other =>
    simp only [List.mem_cons, List.not_mem_nil, or_false, not_or] at h
    obtain ⟨h0, h1, h241, h261⟩ := h
    unfold onScanline
    split
    case h_5 => rfl
    all_goals contradiction

/-! ### Dots that no event reads -/

/-- `s` with `n` more dots on the dot counter. -/
def State.addDots (n : Nat) (s : State) : State := s.setGfx { s.gfx with dot := s.gfx.dot + n }

@[simp] theorem State.addDots_dot (n : Nat) (s : State) : (s.addDots n).gfx.dot = s.gfx.dot + n := rfl

theorem State.addDots_addDots (a b : Nat) (s : State) : (s.addDots a).addDots b = s.addDots (a + b) := by
  show s.setGfx { s.gfx with dot := s.gfx.dot + a + b } = _
  rw [Nat.add_assoc]
  rfl

/-- An advance adds its dots and then makes the turns that are due (R320). -/
theorem advance_eq {s : State} (n : Nat) (hf : s.fault = none) :
    advance n s = scanlines ((s.gfx.dot + n) / 341) (s.addDots n) := by
  unfold advance
  rw [hf]
  rfl

/-- An NMI neither reads nor writes the graphics unit: the stack and the vector are plain storage (R311). -/
theorem nmiEntry_addDots (n : Nat) (s : State) : nmiEntry (s.addDots n) = (nmiEntry s).addDots n := by
  cases hf : s.fault with
  | none =>
    rw [nmiEntry_eq s hf, nmiEntry_eq (s.addDots n) hf]
    rfl
  | some f =>
    have hf' : (s.addDots n).fault = some f := hf
    rw [nmiEntry_faulted hf, nmiEntry_faulted hf']

/-- No event of a scanline reads or writes the dot counter (R321). -/
theorem onScanline_addDots (line n : Nat) (s : State) : onScanline line (s.addDots n) = (onScanline line s).addDots n := by
  by_cases h241 : line = 241
  · have hvblank : (s.addDots n).enterVblank = s.enterVblank.addDots n := rfl
    have hctrl : (s.addDots n).gfx.nmiEnabled = s.gfx.nmiEnabled := rfl
    rw [h241, onScanline_241, onScanline_241, hvblank, hctrl, nmiEntry_addDots, apply_ite (State.addDots n)]
  · unfold onScanline
    split
    case h_3 => contradiction
    all_goals rfl

/-- A turn that is due takes its 341 dots from the front, so later dots may come before it or after it. -/
theorem nextScanline_addDots (n : Nat) {s : State} (h : 341 ≤ s.gfx.dot) :
    nextScanline (s.addDots n) = (nextScanline s).addDots n := by
  unfold nextScanline
  dsimp only
  rw [← onScanline_addDots, State.addDots_dot, Nat.sub_add_comm h]
  rfl

theorem scanlines_addDots (k n : Nat) {s : State} (h : 341 * k ≤ s.gfx.dot) :
    scanlines k (s.addDots n) = (scanlines k s).addDots n := by
  induction k generalizing s with
  | zero => rfl
  | succ k ih =>
    have hrest : 341 * k ≤ (nextScanline s).gfx.dot := by
      rw [(nextScanline_frame s).1]
      omega
    show scanlines k (nextScanline (s.addDots n)) = (scanlines k (nextScanline s)).addDots n
    rw [nextScanline_addDots n (by omega), ih hrest]

/-! ### Advancing -/

/-- The counters after an advance: 341 dots make a scanline, 262 scanlines a frame (R320, R325). -/
theorem advance_counters (n : Nat) {s : State} (hf : s.fault = none) (hs : s.gfx.scanline < 262) :
    (advance n s).gfx.dot = (s.gfx.dot + n) % 341 ∧
      (advance n s).gfx.scanline = (s.gfx.scanline + (s.gfx.dot + n) / 341) % 262 := by
  obtain ⟨hdot, -⟩ := scanlines_frame ((s.gfx.dot + n) / 341) (s.addDots n)
  have hline := scanlines_scanline ((s.gfx.dot + n) / 341) (s.addDots n) hs
  rw [advance_eq n hf, hdot, hline, State.addDots_dot]
  exact ⟨by omega, rfl⟩

/-- The turns due after `a + b` dots are those due after `a` and those due after `b` more, and none of the first sees the later dots. -/
theorem advance_advance (a b : Nat) (s : State) : advance b (advance a s) = advance (a + b) s := by
  cases hf : s.fault with
  | some f => rw [advance_faulted a hf, advance_faulted b hf, advance_faulted _ hf]
  | none =>
    have hf' : (advance a s).fault = none := (advance_frame a s).1.trans hf
    have hturns : (s.gfx.dot + (a + b)) / 341 = (s.gfx.dot + a) / 341 + ((s.gfx.dot + a) % 341 + b) / 341 := by omega
    have hdot : (advance a s).gfx.dot = (s.gfx.dot + a) % 341 := by
      rw [advance_eq a hf, (scanlines_frame _ _).1, State.addDots_dot]
      omega
    have hdue : 341 * ((s.gfx.dot + a) / 341) ≤ (s.addDots a).gfx.dot := Nat.mul_div_le _ _
    calc advance b (advance a s)
      _ = scanlines (((s.gfx.dot + a) % 341 + b) / 341) ((advance a s).addDots b) := by rw [advance_eq b hf', hdot]
      _ = scanlines (((s.gfx.dot + a) % 341 + b) / 341) (scanlines ((s.gfx.dot + a) / 341) (s.addDots (a + b))) := by
        rw [advance_eq a hf, ← scanlines_addDots _ b hdue, State.addDots_addDots]
      _ = advance (a + b) s := by rw [← scanlines_add, ← hturns, ← advance_eq (a + b) hf]

/-- Settles O53: an advance is its turns, and a turn commutes with dots that are not yet due. -/
theorem advanceCountsAndSplits : Obligations.AdvanceCountsAndSplits := by
  refine ⟨fun n s hf h => advance_short n s hf h, fun n s hf h => ?line, fun n s hf hs => advance_counters n hf hs,
    advance_advance⟩
  case line =>
    intro line entered
    have hline : advance n s = advance 0 entered := advance_line n s hf h
    obtain ⟨hdot, -, hfault, -⟩ :=
      onScanline_frame line { s with gfx := { s.gfx with dot := s.gfx.dot + n - 341, scanline := line } }
    refine ⟨hline, fun hlt => hline.trans ?_⟩
    have hshort : entered.gfx.dot + 0 < 341 := by
      rw [hdot]
      show s.gfx.dot + n - 341 + 0 < 341
      omega
    exact advance_short 0 entered (hfault.trans hf) hshort

/-! ### After the instruction -/

theorem catchUp_of_intCycles {before : Nat} {s : State} (h : s.cfg.intCyclesReachGraphics = false) :
    catchUp before s =
      let u := advance (3 * (s.cycles - before)) (s.setLastCycles s.cycles)
      u.setLastCycles u.cycles := by
  unfold catchUp
  rw [h]
  rfl

/-- Settles O7: each setting of `intCyclesReachGraphics` makes one advance, whose counters are `advance_counters`. -/
theorem catchUpPassesThreeDotsPerCycle : Obligations.CatchUpPassesThreeDotsPerCycle := by
  intro before s noted
  refine ⟨catchUp_eq before s, catchUp_of_intCycles, fun hf _ hs => ?counters⟩
  have counters (n : Nat) := advance_counters n (s := noted) hf hs
  cases hcfg : s.cfg.intCyclesReachGraphics with
  | true =>
    dsimp only
    rw [catchUp_eq before s hcfg, if_pos rfl]
    obtain ⟨hdot, hline⟩ := counters (3 * (s.cycles - s.lastCycles))
    exact ⟨hdot, hline, fun _ => (advance_frame _ _).2.2, fun h => Bool.noConfusion h⟩
  | false =>
    dsimp only
    rw [catchUp_of_intCycles hcfg, if_neg Bool.false_ne_true]
    obtain ⟨hdot, hline⟩ := counters (3 * (s.cycles - before))
    exact ⟨hdot, hline, fun h => Bool.noConfusion h, fun _ => rfl⟩

end Sys2Proof.Machine
end

section
/-! The instruction that a step runs (spec 60_exceptions R341, R342, R344): the bytes that the bus gives at the program counter, the
instruction they decode to, a word placed there, and what the instruction leaves alone (R33, R350). -/

namespace Sys2Proof.Machine

/-! ### Fetching what decodes -/

/-- The first `n` bytes that the bus gives from an address on, `n` in 1 to 3, and the state their reads leave (R342, R433). -/
def busBytes (n : Nat) (a : Word) (s : State) : List Byte × State :=
  let first := busRead a s
  let second := busRead (a + 1) first.2
  let third := busRead (a + 2) second.2
  if n = 1 then ([first.1], first.2)
  else if n = 2 then ([first.1, second.1], second.2)
  else ([first.1, second.1, third.1], third.2)

theorem busBytes_one (a : Word) (s : State) : busBytes 1 a s = ([(busRead a s).1], (busRead a s).2) := rfl

theorem busBytes_two (a : Word) (s : State) :
    busBytes 2 a s =
      ([(busRead a s).1, (busRead (a + 1) (busRead a s).2).1], (busRead (a + 1) (busRead a s).2).2) := rfl

theorem busBytes_three (a : Word) (s : State) :
    busBytes 3 a s =
      ([(busRead a s).1, (busRead (a + 1) (busRead a s).2).1, (busRead (a + 2) (busRead (a + 1) (busRead a s).2).2).1],
        (busRead (a + 2) (busRead (a + 1) (busRead a s).2).2).2) := rfl

theorem busBytes_exceptReads (n : Nat) (a : Word) (s : State) : (busBytes n a s).2.exceptReads = s.exceptReads := by
  unfold busBytes
  dsimp only
  split
  · exact busRead_exceptReads a s
  split
  · rw [busRead_exceptReads, busRead_exceptReads]
  · rw [busRead_exceptReads, busRead_exceptReads, busRead_exceptReads]

@[simp] theorem OpForm.length_f1 (i : Instr) : (OpForm.f1 i).length = 1 := rfl
@[simp] theorem OpForm.length_f2 (mk : Byte → Instr) : (OpForm.f2 mk).length = 2 := rfl
@[simp] theorem OpForm.length_f3 (mk : Word → Instr) : (OpForm.f3 mk).length = 3 := rfl

/-- An instruction of a format: its length is the format's and its opcode the map's byte (R100, R107). -/
theorem OpForm.instr_opcodeOf_length {op : Byte} {f : OpForm} (h : opcodeForm op = .ok f) (lo hi : Byte) :
    opcodeOf (f.instr lo hi) = op ∧ (f.instr lo hi).length = f.length := by
  unfold opcodeOf Instr.length
  rw [encode_instr h]
  cases f <;> exact ⟨rfl, rfl⟩

/-- Where the bytes that the bus gives decode to an instruction and are no more than it has, the fetch is that instruction, in the state
their reads leave with PC past them (R342). -/
theorem fetchInstr_of_decode {s : State} {i : Instr} (h : decode (busBytes i.length s.cpu.pc s).1 = .ok (i, [])) :
    fetchInstr s =
      .instr (opcodeOf i) i ((busBytes i.length s.cpu.pc s).2.setPc (s.cpu.pc + BitVec.ofNat 16 i.length)) := by
  obtain ⟨op, f, lo, hi, hf, rfl, hbytes⟩ := exists_of_decode_eq_ok h
  obtain ⟨hop, hlen⟩ := OpForm.instr_opcodeOf_length hf lo hi
  rw [hlen] at hbytes ⊢
  rw [hop]
  unfold fetchInstr
  dsimp only
  rw [fetch8_eq]
  cases f with
  | f1 i =>
    obtain rfl : (busRead s.cpu.pc s).1 = op := by simpa [OpForm.operands, busBytes_one] using hbytes
    rw [hf]
    rfl
  | f2 mk =>
    obtain ⟨rfl, hlo⟩ : (busRead s.cpu.pc s).1 = op ∧ (busRead (s.cpu.pc + 1) (busRead s.cpu.pc s).2).1 = lo := by
      simpa [OpForm.operands, busBytes_two] using hbytes
    rw [hf]
    dsimp only
    rw [fetch8_setPc, hlo, BitVec.add_assoc]
    rfl
  | f3 mk =>
    obtain ⟨rfl, hlo, hhi⟩ : (busRead s.cpu.pc s).1 = op ∧ (busRead (s.cpu.pc + 1) (busRead s.cpu.pc s).2).1 = lo ∧
        (busRead (s.cpu.pc + 2) (busRead (s.cpu.pc + 1) (busRead s.cpu.pc s).2).2).1 = hi := by
      simpa [OpForm.operands, busBytes_three] using hbytes
    have h2 : s.cpu.pc + 1 + 1 = s.cpu.pc + 2 := BitVec.add_assoc _ _ _
    have h3 : s.cpu.pc + 2 + 1 = s.cpu.pc + 3 := BitVec.add_assoc _ _ _
    rw [hf]
    dsimp only
    unfold fetch16
    dsimp only
    rw [fetch8_setPc, fetch8_setPc, h2, hlo, hhi, h3]
    rfl

/-- Plain storage gives its bytes without side effect, so an instruction there is fetched from the backing store (R14, R66, R67). -/
theorem busBytes_of_plain {s : State} {i : Instr} {a : Word} {rest : List Byte}
    (h : decode [s.byteAt a, s.byteAt (a + 1), s.byteAt (a + 2)] = .ok (i, rest))
    (hp : ∀ k, k < i.length → plainRead s.cfg (a + BitVec.ofNat 16 k) = true) :
    ∃ bytes, busBytes i.length a s = (bytes, s) ∧ decode bytes = .ok (i, []) := by
  obtain ⟨op, f, lo, hi, hf, rfl, hbytes⟩ := exists_of_decode_eq_ok h
  rw [(OpForm.instr_opcodeOf_length hf lo hi).2] at hp ⊢
  refine ⟨op :: f.operands lo hi ++ [], ?_, decode_operands hf lo hi []⟩
  have read0 (h0 : 0 < f.length) : busRead a s = (s.byteAt a, s) := busRead_plain a s (by simpa using hp 0 h0)
  have read1 (h1 : 1 < f.length) : busRead (a + 1) s = (s.byteAt (a + 1), s) := busRead_plain _ s (hp 1 h1)
  have read2 (h2 : 2 < f.length) : busRead (a + 2) s = (s.byteAt (a + 2), s) := busRead_plain _ s (hp 2 h2)
  cases f with
  | f1 i =>
    obtain ⟨hop, -⟩ : s.byteAt a = op ∧ [s.byteAt (a + 1), s.byteAt (a + 2)] = rest := by
      simpa [OpForm.operands] using hbytes
    rw [OpForm.length_f1, busBytes_one, read0 (by simp), hop]
    rfl
  | f2 mk =>
    obtain ⟨hop, hlo, -⟩ : s.byteAt a = op ∧ s.byteAt (a + 1) = lo ∧ [s.byteAt (a + 2)] = rest := by
      simpa [OpForm.operands] using hbytes
    rw [OpForm.length_f2, busBytes_two, read0 (by simp), read1 (by simp), hop, hlo]
    rfl
  | f3 mk =>
    obtain ⟨hop, hlo, hhi, -⟩ : s.byteAt a = op ∧ s.byteAt (a + 1) = lo ∧ s.byteAt (a + 2) = hi ∧ [] = rest := by
      simpa [OpForm.operands] using hbytes
    rw [OpForm.length_f3, busBytes_three, read0 (by simp), read1 (by simp), read2 (by simp), hop, hlo, hhi]
    rfl

/-! ### Running it -/

/-- A running machine runs the instruction that it fetches, adds its row's base cost and advances the graphics unit (R341, R342). -/
theorem step_of_fetchInstr {s t : State} {i : Instr} (hrun : s.running) (h : fetchInstr s.begun = .instr (opcodeOf i) i t) :
    ∃ u, exec i t = .next u ∧ step s = .next (catchUp s.begun.cycles { u with cycles := u.cycles + baseCost i.op }) := by
  have hf : (runOp i.op t).fault = none :=
    ((AccessesOnly.fetchInstr h).trans (AccessesOnly.runOp i.op t)).fault_eq.trans hrun.1
  refine ⟨runOp i.op t, exec_eq i t, ?_⟩
  rw [step_running s hrun, orchestratorStep_instr s.begun t _ i hrun.2.1 h hf, cycleTable_opcodeOf]
  rfl

/-- A running machine runs the instruction that the bus reads at PC give (R342). -/
theorem step_of_busBytes {s : State} {i : Instr} {bytes : List Byte} {t : State} (hrun : s.running)
    (hbus : busBytes i.length s.begun.cpu.pc s.begun = (bytes, t)) (h : decode bytes = .ok (i, [])) :
    ∃ u, exec i { t with cpu := { s.begun.cpu with pc := s.begun.cpu.pc + BitVec.ofNat 16 i.length } } = .next u ∧
      step s = .next (catchUp s.begun.cycles { u with cycles := u.cycles + baseCost i.op }) := by
  have hfetch := fetchInstr_of_decode (s := s.begun) (i := i) (by rw [hbus]; exact h)
  have hcpu : t.cpu = s.begun.cpu := by
    have hreads := busBytes_exceptReads i.length s.begun.cpu.pc s.begun
    rw [hbus] at hreads
    exact State.cpu_of_exceptReads hreads
  rw [hbus, State.setPc, hcpu] at hfetch
  exact step_of_fetchInstr hrun hfetch

/-- Settles O6: the fetch is the decoded bytes (`fetchInstr_of_decode`), and from plain storage it changes PC alone. -/
theorem stepRunsTheDecodedInstruction : Obligations.StepRunsTheDecodedInstruction := by
  constructor
  · intro s i hrun q first second third fetched h
    exact step_of_busBytes hrun rfl h
  · intro s i rest hrun q h hp
    obtain ⟨bytes, hbus, hdec⟩ := busBytes_of_plain h hp
    exact step_of_busBytes hrun hbus hdec

/-! ### A placed instruction -/

theorem plainRead_nes_iff {cfg : Config} (hm : cfg.busMode = .nes) (a : Word) :
    plainRead cfg a = true ↔ (a.toNat < 0x2000 ∨ 0x4000 ≤ a.toNat) ∧ a ≠ 0x4016#16 := by
  have hwindow : inGfxWindow a = false ↔ a.toNat < 0x2000 ∨ 0x4000 ≤ a.toNat := by
    rw [← Bool.not_eq_true, inGfxWindow_iff]
    omega
  simp [plainRead, hm, hwindow]

/-- Plain addresses fewer than 0x800 apart name different bytes: the mirrors are at least that far from each other (R62, R63, R65). -/
theorem busIndex_ne {cfg : Config} {a b : Word} {d : Nat} (ha : plainRead cfg a = true) (hb : plainRead cfg b = true)
    (hab : b.toNat = (a.toNat + d) % 65536) (hd : 0 < d) (hd' : d < 0x800) : busIndex cfg a ≠ busIndex cfg b := by
  have hlt := a.isLt
  cases hm : cfg.busMode with
  | flat =>
    rw [busIndex_flat cfg a hm, busIndex_flat cfg b hm]
    omega
  | nes =>
    obtain ⟨ha, -⟩ := (plainRead_nes_iff hm a).mp ha
    obtain ⟨hb, -⟩ := (plainRead_nes_iff hm b).mp hb
    rw [busIndex_nes cfg a hm, busIndex_nes cfg b hm]
    unfold normIndex
    by_cases hone : cfg.prgUnits = .one
    all_goals
      simp only [hone]
      split_ifs <;> omega

/-- The three bytes at an address, read from the backing store without side effect. -/
def State.codeAt (s : State) (a : Word) : List Byte := [s.byteAt a, s.byteAt (a + 1), s.byteAt (a + 2)]

/-- Three bytes placed at plain addresses stand there, and only the backing store changes. -/
theorem placeBytes_codeAt {a : Word} {s : State} (b0 b1 b2 : Byte) (hp : plainCode s.cfg a = true) :
    ∃ m, placeBytes [b0, b1, b2] a s = s.setMem m ∧ (s.setMem m).codeAt a = [b0, b1, b2] := by
  unfold plainCode at hp
  simp only [Bool.and_eq_true] at hp
  obtain ⟨⟨p0, p1⟩, p2⟩ := hp
  have h2 : a + 1 + 1 = a + 2 := BitVec.add_assoc _ _ _
  have hnext : (a + 2).toNat = ((a + 1).toNat + 1) % 65536 := h2 ▸ BitVec.toNat_add (a + 1) 1
  have ne1 := (busIndex_ne p0 p1 (BitVec.toNat_add a 1) (by decide) (by decide)).symm
  have ne2 := (busIndex_ne p0 p2 (BitVec.toNat_add a 2) (by decide) (by decide)).symm
  have ne12 := (busIndex_ne p1 p2 hnext (by decide) (by decide)).symm
  refine ⟨_, rfl, ?_⟩
  show (((s.storeByte a b0).storeByte (a + 1) b1).storeByte (a + 1 + 1) b2).codeAt a = _
  unfold State.codeAt
  rw [h2]
  simp only [storeByte_byteAt, storeByte_cfg, ne1, ne2, ne12, if_true, if_false]

/-- Code is placed where the next fetch reads it, at plain addresses, and only PC and the backing store change (log 3). -/
theorem placeCode_codeAt (b0 b1 b2 : Byte) (s : State) :
    ∃ w m, placeCode [b0, b1, b2] s = (s.setPc w).setMem m ∧ plainCode s.cfg w = true ∧
      ((s.setPc w).setMem m).codeAt w = [b0, b1, b2] := by
  obtain ⟨w, hplace, hplain⟩ :
      ∃ w, placeCode [b0, b1, b2] s = placeBytes [b0, b1, b2] w (s.setPc w) ∧ plainCode s.cfg w = true := by
    unfold placeCode
    dsimp only
    split
    · next h => exact ⟨s.cpu.pc, rfl, h⟩
    · refine ⟨0x0000#16, rfl, ?_⟩
      unfold plainCode
      rw [plainRead_low _ _ (by decide), plainRead_low _ _ (by decide), plainRead_low _ _ (by decide)]
      rfl
  obtain ⟨m, hmem, hcode⟩ := placeBytes_codeAt (s := s.setPc w) b0 b1 b2 hplain
  exact ⟨w, m, hplace.trans hmem, hplain, hcode⟩

/-- After `withFetchWord` the machine runs with no move pending, and the word's bytes are plain storage at PC. -/
theorem withFetchWord_ready (s : State) (nbits w : Nat) :
    let q := s.withFetchWord nbits w
    q.running ∧ q.hostMoves = [] ∧ plainCode q.cfg q.cpu.pc = true ∧ q.codeAt q.cpu.pc = tableBytes nbits w := by
  obtain ⟨a, m, hplace, hplain, hcode⟩ := placeCode_codeAt (BitVec.ofNat 8 (w % 2 ^ nbits))
    (BitVec.ofNat 8 (w % 2 ^ nbits / 256)) (BitVec.ofNat 8 (w % 2 ^ nbits / 65536))
    (((s.setFault none).setHalted false).setHostMoves [])
  have hq : s.withFetchWord nbits w = _ := hplace
  dsimp only
  rw [hq]
  exact ⟨⟨rfl, rfl, .inl rfl⟩, rfl, hplain, hcode⟩

theorem decode_of_decodeTableWord {nbits w : Nat} {i : Instr} (h : decodeTableWord nbits w = some i) :
    ∃ rest, decode (tableBytes nbits w) = .ok (i, rest) := by
  unfold decodeTableWord at h
  cases hd : decode (tableBytes nbits w) with
  | error e =>
    rw [hd] at h
    cases h
  | ok r =>
    rw [hd] at h
    cases h
    exact ⟨r.2, rfl⟩

/-- Three plain bytes are plain as far as any instruction reaches. -/
theorem plainRead_of_plainCode {cfg : Config} {a : Word} (h : plainCode cfg a = true) (i : Instr) (k : Nat) (hk : k < i.length) :
    plainRead cfg (a + BitVec.ofNat 16 k) = true := by
  have hlen : i.length ≤ 3 := by
    obtain ⟨f, hf, hi⟩ := i.exists_opcodeForm
    rw [← hi, (OpForm.instr_opcodeOf_length hf _ _).2]
    cases f <;> simp
  unfold plainCode at h
  simp only [Bool.and_eq_true] at h
  obtain ⟨⟨h0, h1⟩, h2⟩ := h
  obtain rfl | rfl | rfl : k = 0 ∨ k = 1 ∨ k = 2 := by omega
  · simpa using h0
  · exact h1
  · exact h2

/-- Settles O8: the placed bytes are plain storage at PC (`withFetchWord_ready`), so the step fetches what they decode to. -/
theorem placedWordIsRunNext : Obligations.PlacedWordIsRunNext := by
  intro s nbits w i h q
  obtain ⟨hrun, hmoves, hplain, hcode⟩ := withFetchWord_ready s nbits w
  obtain ⟨rest, hdec⟩ := decode_of_decodeTableWord h
  have hbegun : q.begun = q := begun_eq q hmoves
  obtain ⟨bytes, hbus, hdec⟩ := busBytes_of_plain (hcode ▸ hdec) (plainRead_of_plainCode hplain i)
  have hstep := step_of_busBytes (i := i) (bytes := bytes) (t := q) hrun (by rwa [hbegun]) hdec
  rwa [hbegun] at hstep

/-! ### What it leaves alone -/

/-- B is in no row of the "flags written" column (R33). -/
theorem b_notMem_flagsWritten (o : Op) : FlagName.b ∉ flagsWritten o := by
  cases o <;> simp [flagsWritten]

/-- Settles O13: an instruction is register writes and bus accesses (`AccessesOnly.runOp`), and its row's column does not list B. -/
theorem everyInstructionCompletes : Obligations.EveryInstructionCompletes := by
  intro i s
  have accesses := AccessesOnly.runOp i.op s
  have kept {α : Type} (field : State → α) : field (runOp i.op s).exceptAccesses = field s.exceptAccesses :=
    congrArg field accesses.frame
  exact ⟨runOp i.op s, exec_eq i s, accesses.cfg_eq, accesses.fault_eq, kept (·.halted), accesses.cycles_eq,
    accesses.lastCycles_eq, kept (·.hostMoves), kept (·.framesReady), accesses.scanline_eq, accesses.dot_eq, accesses.vblank_eq,
    kept (·.gfx.snapNT), kept (·.gfx.snapPal), kept (·.gfx.frame),
    runOp_flags i.op s .b (b_notMem_flagsWritten i.op)⟩

end Sys2Proof.Machine
end

section
/-! Interrupt entries, the return from one and the CPU reset (spec 60_exceptions R310-R313, 70_reset R400): each as its stores to page 1 and
its loads from there or from a vector. -/

namespace Sys2Proof.Machine

/-! ### Entries and reset -/

/-- An NMI's or IRQ's entry with its cycles (R310, R311, R312). -/
theorem addCycles_interruptEntry (vec : Word) (s : State) (h : 0x8000 ≤ vec.toNat) (h1 : 0x8000 ≤ (vec + 1).toNat) :
    addCycles intCycles (interruptEntry vec false s) = { s with
      mem := ((s.mem.write (0x100 + s.cpu.s.toNat) (BitVec.ofNat 8 (s.cpu.pc.toNat / 256))).write
        (0x100 + (s.cpu.s.toNat + 255) % 256) (BitVec.ofNat 8 s.cpu.pc.toNat)).write
        (0x100 + (s.cpu.s.toNat + 254) % 256) s.cpu.p.asByte
      cpu := { s.cpu with
        s := BitVec.ofNat 8 ((s.cpu.s.toNat + 253) % 256)
        p := { s.cpu.p with i := true }
        pc := BitVec.ofNat 16 (256 * (s.byteAt (vec + 1)).toNat + (s.byteAt vec).toNat) }
      cycles := s.cycles + 7 } := by
  rw [interruptEntry_page1 vec false s h h1]
  rfl

theorem nmiEntry_of_fault_none {s : State} (h : s.fault = none) :
    nmiEntry s = addCycles intCycles (interruptEntry nmiVector false s) := by
  unfold nmiEntry
  rw [h]
  rfl

theorem irqEntry_of_fault_none {s : State} (h : s.fault = none) :
    irqEntry s = if s.cpu.p.i then s else addCycles intCycles (interruptEntry irqVector false s) := by
  unfold irqEntry
  rw [h]
  rfl

/-- Settles O38: both entries are the shared one (`interruptEntry_page1`) with its cycles, an IRQ only while I is clear. -/
theorem interruptEntries : Obligations.InterruptEntries := by
  intro s hf entry
  rw [nmiEntry_of_fault_none hf, irqEntry_of_fault_none hf]
  constructor
  · exact addCycles_interruptEntry nmiVector s (by decide) (by decide)
  · exact congrArg _ (addCycles_interruptEntry irqVector s (by decide) (by decide))

/-- Settles O40: the vector is plain storage, and neither the registers nor the flags are read. -/
theorem resetReinitializesTheProcessor : Obligations.ResetReinitializesTheProcessor := by
  intro s hf
  unfold resetCpu
  rw [if_neg (by rw [hf]; decide)]
  dsimp only
  rw [busRead16_high resetVector _ (by decide) (by decide), mkWord_eq]
  rfl

/-! ### The return -/

/-- A return from an interrupt whose three bytes lie where an entry from S, PC and `p` puts them: it restores S, PC and every flag but
B, whatever the rest of the state (R272, R313). -/
theorem interruptReturn_of_stacked {u : State} {sp status : Byte} {pc : Word} (hs : u.cpu.s = sp - 3)
    (hhi : u.mem.read (0x100 + sp.toNat) = hiByte pc) (hlo : u.mem.read (0x100 + (sp.toNat + 255) % 256) = loByte pc)
    (hp : u.mem.read (0x100 + (sp.toNat + 254) % 256) = status) :
    interruptReturn u =
      { u with cpu := { u.cpu with s := sp, p := { Flags.loadByte status with b := u.cpu.p.b }, pc := pc } } := by
  have h1 : u.cpu.s + 1 = sp - 2 := by rw [hs]; bv_omega
  have hsp : (sp - 2).toNat = (sp.toNat + 254) % 256 := byteSub_toNat _ (by decide)
  have hpull : pullStatus u = (u.setS (sp - 2)).setP (u.cpu.p.pulled status) := by
    unfold pullStatus
    dsimp only
    rw [pull_eq, h1, State.byteAt, busIndex_stack, hsp, hp]
    rfl
  unfold interruptReturn
  dsimp only
  rw [hpull, pull16_of_stacked (u := (u.setS (sp - 2)).setP (u.cpu.p.pulled status)) rfl hhi hlo]
  rfl

/-- The bytes that an interrupt entry leaves on the stack, and S below them (R310). -/
theorem interruptEntry_stacked (vec : Word) (brk : Bool) (s : State) (h : 0x8000 ≤ vec.toNat) (h1 : 0x8000 ≤ (vec + 1).toNat) :
    let t := interruptEntry vec brk s
    t.cpu.s = s.cpu.s - 3 ∧ t.mem.read (0x100 + s.cpu.s.toNat) = hiByte s.cpu.pc ∧
      t.mem.read (0x100 + (s.cpu.s.toNat + 255) % 256) = loByte s.cpu.pc ∧
      t.mem.read (0x100 + (s.cpu.s.toNat + 254) % 256) = pushedStatus s.cpu.p brk := by
  have hsp := s.cpu.s.isLt
  have ne1 : 0x100 + (s.cpu.s.toNat + 255) % 256 ≠ 0x100 + s.cpu.s.toNat := by omega
  have ne2 : 0x100 + (s.cpu.s.toNat + 254) % 256 ≠ 0x100 + s.cpu.s.toNat := by omega
  have ne12 : 0x100 + (s.cpu.s.toNat + 254) % 256 ≠ 0x100 + (s.cpu.s.toNat + 255) % 256 := by omega
  have hs3 : s.cpu.s - 3 = BitVec.ofNat 8 ((s.cpu.s.toNat + 253) % 256) := byteSub_eq _ (by decide)
  rw [interruptEntry_page1 vec brk s h h1, hs3, hiByte_eq, loByte_eq]
  refine ⟨rfl, ?_, ?_, ?_⟩ <;> dsimp only
  · rw [Memory.read_write_other _ _ ne2, Memory.read_write_other _ _ ne1, Memory.read_write_same]
  · rw [Memory.read_write_other _ _ ne12, Memory.read_write_same]
  · rw [Memory.read_write_same]

/-- The pushed status gives back every flag but B, whichever entry pushed it (R151, R310). -/
theorem loadByte_pushedStatus (p : Flags) (brk b : Bool) :
    { Flags.loadByte (pushedStatus p brk) with b := b } = { p with b := b } := by
  cases brk with
  | false =>
    show { Flags.loadByte p.asByte with b := b } = _
    rw [loadByte_asByte]
  | true =>
    show { Flags.loadByte p.pushedByBreak with b := b } = _
    rw [pushedByBreak_eq, loadByte_asByte]

/-- `u` has the S of `t`, and its three bytes of the stack above it, where `sp` was S before an entry. -/
def KeepsStacked (sp : Byte) (t u : State) : Prop :=
  u.cpu.s = t.cpu.s ∧
    ∀ k, k < 3 → u.mem.read (0x100 + (sp.toNat + (256 - k)) % 256) = t.mem.read (0x100 + (sp.toNat + (256 - k)) % 256)

/-- The cycles of an entry are none of this. -/
theorem KeepsStacked.of_addCycles {sp : Byte} {n : Nat} {t u : State} (h : KeepsStacked sp (addCycles n t) u) :
    KeepsStacked sp t u := h

/-- RTI from a state with the S and the three stack bytes that an entry left (R313). -/
theorem interruptReturn_interruptEntry {u : State} (vec : Word) (brk : Bool) (s : State) (h : 0x8000 ≤ vec.toNat)
    (h1 : 0x8000 ≤ (vec + 1).toNat) (hkept : KeepsStacked s.cpu.s (interruptEntry vec brk s) u) :
    interruptReturn u =
      { u with cpu := { u.cpu with s := s.cpu.s, p := { s.cpu.p with b := u.cpu.p.b }, pc := s.cpu.pc } } := by
  obtain ⟨hs, hmem⟩ := hkept
  obtain ⟨hsp, hhi, hlo, hp⟩ := interruptEntry_stacked vec brk s h h1
  have h0 := hmem 0 (by decide)
  rw [Nat.sub_zero, Nat.add_mod_right, Nat.mod_eq_of_lt s.cpu.s.isLt] at h0
  rw [interruptReturn_of_stacked (hs.trans hsp) (h0.trans hhi) ((hmem 1 (by decide)).trans hlo) ((hmem 2 (by decide)).trans hp),
    loadByte_pushedStatus]

/-- Settles O39: all three entries are the shared one, whose bytes RTI pulls back. -/
theorem returnFromInterruptUndoesTheEntry : Obligations.ReturnFromInterruptUndoesTheEntry := by
  intro s t u hs hmem resumed
  have hkept : KeepsStacked s.cpu.s t u := ⟨hs, hmem⟩
  refine ⟨fun hf ht => ?nmi, fun hf hi ht => ?irq, fun hbrk => ?brk⟩
  case nmi =>
    rw [ht, nmiEntry_of_fault_none hf] at hkept
    exact congrArg _ (interruptReturn_interruptEntry nmiVector false s (by decide) (by decide) hkept.of_addCycles)
  case irq =>
    rw [ht, irqEntry_of_fault_none hf, hi] at hkept
    exact congrArg _ (interruptReturn_interruptEntry irqVector false s (by decide) (by decide) hkept.of_addCycles)
  case brk =>
    obtain rfl : interruptEntry irqVector true (s.setPc (s.cpu.pc + 1)) = t := Host.Outcome.next.inj hbrk
    exact congrArg _ (interruptReturn_interruptEntry irqVector true (s.setPc (s.cpu.pc + 1)) (by decide) (by decide) hkept)

end Sys2Proof.Machine
end

section
/-! The graphics unit's register file behind the bus (spec 60_exceptions R330-R337): the status and write-only reads, the register writes, the
address latch and the data register. -/

namespace Sys2Proof.Machine

/-! ### Words as numbers -/

/-- The graphics space wraps at 0x4000 (R82, R336, R337). -/
theorem and_0x3FFF_eq (a : Word) : a &&& 0x3FFF#16 = BitVec.ofNat 16 (a.toNat % 0x4000) := by
  apply BitVec.eq_of_toNat_eq
  rw [and_mask_toNat a _ 14 rfl, BitVec.toNat_ofNat]
  omega

/-! ### The registers behind their addresses -/

/-- An address of the block at 0x2000 lies in the window and names the register of its offset (R64). -/
theorem registerAddress {r : Nat} (hr : r < 8) :
    inGfxWindow (BitVec.ofNat 16 (0x2000 + r)) = true ∧ gfxOffset (BitVec.ofNat 16 (0x2000 + r)) = BitVec.ofNat 3 r := by
  have haddr : (BitVec.ofNat 16 (0x2000 + r)).toNat = 0x2000 + r := by
    rw [BitVec.toNat_ofNat]
    omega
  rw [inGfxWindow_iff, gfxOffset_eq, haddr, Nat.mul_add_mod 8 1024 r, Nat.mod_eq_of_lt hr]
  exact ⟨by omega, rfl⟩

section
variable (s : State) (hm : s.cfg.busMode = .nes) (r : Nat) (hr : r < 8)
include hm hr

theorem busRead_register : busRead (BitVec.ofNat 16 (0x2000 + r)) s = gregRead (BitVec.ofNat 3 r) s := by
  obtain ⟨hwindow, hoffset⟩ := registerAddress hr
  rw [busRead_window s _ hm hwindow, hoffset]

theorem busWrite_register (v : Byte) :
    busWrite (BitVec.ofNat 16 (0x2000 + r)) v s = s.setGfx (s.gfx.regWrite s.cfg.ntMirror (BitVec.ofNat 3 r) v) := by
  obtain ⟨hwindow, hoffset⟩ := registerAddress hr
  rw [busWrite_window s _ v hm hwindow, hoffset]

end

/-! ### Status and write-only reads -/

/-- A register with no read of its own gives a free value (R334). -/
theorem gregRead_writeOnly (r : BitVec 3) (s : State) (h2 : r.toNat ≠ 2) (h7 : r.toNat ≠ 7) :
    gregRead r s = (Config.openReg s.draws, s.countDraw) := by
  unfold gregRead
  split
  · contradiction
  · contradiction
  · rfl

/-- Vertical blank is bit 7 of a status read, over any free value (R333). -/
theorem Gfx.statusRead_bit7 (g : Gfx) (low7 : BitVec 7) : decide (128 ≤ (g.statusRead low7).1.toNat) = g.vblank := by
  rw [← getLsbD7_eq]
  show (BitVec.ofBool g.vblank ++ low7).getLsbD 7 = _
  rw [BitVec.getLsbD_append]
  simp

/-- Settles O48: register 2 is the status read, and the other five have no read of their own. -/
theorem statusAndWriteOnlyReads : Obligations.StatusAndWriteOnlyReads := by
  intro s hm
  constructor
  · exact ⟨_, s.gfx.statusRead_bit7 (Config.statusLow7 s.draws), busRead_register s hm 2 (by decide)⟩
  · intro r hr
    have hne : r < 8 ∧ r ≠ 2 ∧ r ≠ 7 := by
      simp only [List.mem_cons, List.not_mem_nil, or_false] at hr
      omega
    obtain ⟨hlt, h2, h7⟩ := hne
    have hoff : (BitVec.ofNat 3 r).toNat = r := by
      rw [BitVec.toNat_ofNat]
      omega
    exact ⟨_, (busRead_register s hm r hlt).trans (gregRead_writeOnly _ s (by rwa [hoff]) (by rwa [hoff]))⟩

/-! ### Register writes and the address latch -/

/-- The first address write sets the high byte and clears the low one (R336). -/
theorem Gfx.addrWrite_first (g : Gfx) (v : Byte) (hw : g.w = false) :
    g.addrWrite v = { g with ptr := BitVec.ofNat 16 (256 * v.toNat), w := true } := by
  have hptr : zext16 v <<< 8 = BitVec.ofNat 16 (256 * v.toNat) := by
    apply BitVec.eq_of_toNat_eq
    rw [BitVec.toNat_shiftLeft, zext16_toNat, BitVec.toNat_ofNat, Nat.shiftLeft_eq, Nat.mul_comm]
  unfold Gfx.addrWrite
  rw [hw, hptr]
  rfl

/-- The second adds its byte, modulo the size of the space (R336). -/
theorem Gfx.addrWrite_second (g : Gfx) (v : Byte) (hw : g.w = true) :
    g.addrWrite v = { g with ptr := BitVec.ofNat 16 ((g.ptr.toNat + v.toNat) % 65536 % 0x4000), w := false } := by
  unfold Gfx.addrWrite
  rw [if_pos hw, and_0x3FFF_eq, BitVec.toNat_add, zext16_toNat]

/-- Two address writes leave the pointer at their 16-bit value, modulo the size of the space, and the latch as it was (R336). -/
theorem Gfx.addrWrite_addrWrite (g : Gfx) (v lo : Byte) (hw : g.w = false) :
    (g.addrWrite v).addrWrite lo = { g with ptr := BitVec.ofNat 16 ((256 * v.toNat + lo.toNat) % 0x4000) } := by
  have hhigh : (BitVec.ofNat 16 (256 * v.toNat)).toNat = 256 * v.toNat := by
    have := v.isLt
    rw [BitVec.toNat_ofNat]
    omega
  have hwrap : (256 * v.toNat + lo.toNat) % 65536 % 0x4000 = (256 * v.toNat + lo.toNat) % 0x4000 :=
    Nat.mod_mod_of_dvd _ (by decide)
  rw [Gfx.addrWrite_first g v hw, Gfx.addrWrite_second _ lo rfl]
  dsimp only
  rw [hhigh, hwrap, ← hw]

/-- Settles O49: each address is a register of `Gfx.regWrite`, and the sixth is the address latch. -/
theorem registerWritesAndAddressLatch : Obligations.RegisterWritesAndAddressLatch := by
  intro s v lo hm
  have latch (t : State) (ht : t.cfg.busMode = .nes) (b : Byte) : busWrite 0x2006 b t = t.setGfx (t.gfx.addrWrite b) :=
    busWrite_register t ht 6 (by decide) b
  refine ⟨?ctrl, ?mask, ?status, ?oamAddr, ?oamData, ?scroll, fun hw => ?first, fun hw => ?second⟩
  case ctrl => exact busWrite_register s hm 0 (by decide) v
  case mask => exact busWrite_register s hm 1 (by decide) v
  case status => exact busWrite_register s hm 2 (by decide) v
  case oamAddr => exact busWrite_register s hm 3 (by decide) v
  case oamData => exact busWrite_register s hm 4 (by decide) v
  case scroll => exact busWrite_register s hm 5 (by decide) v
  case first =>
    rw [latch s hm]
    constructor
    · exact congrArg s.setGfx (Gfx.addrWrite_first _ v hw)
    · exact (latch (s.setGfx (s.gfx.addrWrite v)) hm lo).trans (congrArg s.setGfx (Gfx.addrWrite_addrWrite _ v lo hw))
  case second => exact (latch s hm v).trans (congrArg s.setGfx (Gfx.addrWrite_second _ v hw))

/-! ### The data register -/

/-- The pointer's step as a number (R330). -/
theorem Gfx.increment_toNat (g : Gfx) : g.increment.toNat = if g.ctrl.getLsbD 2 then 32 else 1 := by
  unfold Gfx.increment
  split <;> rfl

/-- The pointer moves on by the step, modulo the size of the space (R337). -/
theorem Gfx.advancePtr_eq (g : Gfx) :
    g.advancePtr = { g with ptr := BitVec.ofNat 16 ((g.ptr.toNat + if g.ctrl.getLsbD 2 then 32 else 1) % 0x4000) } := by
  unfold Gfx.advancePtr
  rw [and_0x3FFF_eq, BitVec.toNat_add, Gfx.increment_toNat, Nat.mod_mod_of_dvd _ (by decide)]

/-- A data read by where the pointer is (R337). -/
theorem Gfx.dataRead_eq (mode : NtMirror) (g : Gfx) :
    let here : Word := BitVec.ofNat 16 (g.ptr.toNat % 0x4000)
    g.dataRead mode =
      if 0x3F00 ≤ here.toNat then (g.vread mode here, g.advancePtr)
      else (g.buffer, { g with buffer := g.vread mode here }.advancePtr) := by
  unfold Gfx.dataRead
  dsimp only
  rw [and_0x3FFF_eq]
  rfl

/-- Settles O50: register 7 is the data read and the data write, and both move the pointer on (`Gfx.advancePtr_eq`). -/
theorem dataRegister : Obligations.DataRegister := by
  intro s v hm inc next here byte
  have hread : busRead 0x2007 s = ((s.gfx.dataRead s.cfg.ntMirror).1, s.setGfx (s.gfx.dataRead s.cfg.ntMirror).2) :=
    busRead_register s hm 7 (by decide)
  have hwrite : busWrite 0x2007 v s = s.setGfx (s.gfx.vwrite s.cfg.ntMirror s.gfx.ptr v).advancePtr :=
    busWrite_register s hm 7 (by decide) v
  refine ⟨?write, fun h => ?palette, fun h => ?buffered⟩
  case write =>
    rw [hwrite, Gfx.advancePtr_eq]
    rfl
  case palette =>
    rw [hread, Gfx.dataRead_eq, if_pos h, Gfx.advancePtr_eq]
    rfl
  case buffered =>
    rw [hread, Gfx.dataRead_eq, if_neg (Nat.not_le.mpr h), Gfx.advancePtr_eq]
    rfl

end Sys2Proof.Machine
end

section
/-! The composer's snapshot and the composed frame, cell by cell and pixel by pixel (spec 60_exceptions R322, R323). -/

namespace Sys2Proof.Machine

theorem Gfx.ntBase_add (g : Gfx) (k : Nat) :
    g.ntBase + BitVec.ofNat 16 k = BitVec.ofNat 16 (0x2000 + 0x400 * (g.ctrl.toNat % 4) + k) := by
  have hsel : (g.ctrl &&& 0x03#8).toNat = g.ctrl.toNat % 4 := by
    rw [BitVec.toNat_and]
    exact Nat.and_two_pow_sub_one_eq_mod _ 2
  unfold Gfx.ntBase
  rw [zext16_eq, hsel, BitVec.ofNat_add, BitVec.ofNat_add, BitVec.ofNat_mul]

theorem Gfx.bgBank_add (g : Gfx) (k : Nat) :
    g.bgBank + BitVec.ofNat 16 k = BitVec.ofNat 16 ((if g.ctrl.getLsbD 4 then 0x1000 else 0x0000) + k) := by
  unfold Gfx.bgBank
  rw [BitVec.ofNat_add, apply_ite (BitVec.ofNat 16)]

/-- The two bits of a cell's palette, with the shift as a power of four (R323). -/
theorem Gfx.cellPalette_eq (g : Gfx) (row col : Nat) :
    g.cellPalette row col =
      (g.snapNT.read (0x3C0 + row / 4 * 8 + col / 4)).toNat / 4 ^ (2 * (row % 4 / 2) + col % 4 / 2) % 4 := by
  unfold Gfx.cellPalette quadrant
  rw [Nat.pow_mul, Nat.mul_comm 2 (row % 4 / 2)]

/-- A pixel of a cell, its row and column in the frame taken apart into the cell and the place in it. -/
theorem Gfx.pixel_cell (mode : NtMirror) (g : Gfx) (row col : Nat) {x y : Nat} (hx : x < 8) (hy : y < 8) :
    g.pixel mode (row * 8 + y) (col * 8 + x) =
      g.snapPal.read (4 * g.cellPalette row col + g.tilePixel mode (g.snapNT.read (row * 32 + col)) x y) := by
  have hrow : (row * 8 + y) / 8 = row ∧ (row * 8 + y) % 8 = y := by omega
  have hcol : (col * 8 + x) / 8 = col ∧ (col * 8 + x) % 8 = x := by omega
  unfold Gfx.pixel
  rw [hrow.1, hrow.2, hcol.1, hcol.2]

/-- Settles O55: the arrays are given by functions (`Memory.read_ofFn`), whose indexes are these. -/
theorem composerSnapshotAndPixels : Obligations.ComposerSnapshotAndPixels := by
  intro mode g
  refine ⟨⟨rfl, fun k hk => ?nametable, fun k hk => ?palette⟩, rfl, fun row col x y hrow hcol hx hy => ?pixel⟩
  case nametable => rw [Gfx.snapshot_snapNT, Memory.read_ofFn, if_pos hk, Gfx.ntBase_add]
  case palette => rw [Gfx.snapshot_snapPal, Memory.read_ofFn, if_pos hk, BitVec.ofNat_add]
  case pixel =>
    have hindex : (256 * (row * 8 + y) + (col * 8 + x)) / 256 = row * 8 + y ∧
        (256 * (row * 8 + y) + (col * 8 + x)) % 256 = col * 8 + x := by omega
    have hsize : 256 * (row * 8 + y) + (col * 8 + x) < 61440 := by omega
    dsimp only
    rw [Gfx.compose_frame, Memory.read_ofFn, if_pos hsize, hindex.1, hindex.2, Gfx.pixel_cell mode g row col hx hy,
      Gfx.cellPalette_eq]
    unfold Gfx.tilePixel
    dsimp only
    rw [Gfx.bgBank_add, Gfx.bgBank_add]
    simp only [Nat.add_assoc]

end Sys2Proof.Machine
end

section
/-! Loading an image and power-on (spec 70_reset R401, R403-R406): the loader's checks as numbers, and the two arrays laid out from an image
that passes them. -/

namespace Sys2Proof.Machine

/-! ### Fields of the header as numbers -/

theorem getLsbD_eq_div_mod (v : Byte) (k : Nat) : v.getLsbD k = decide (v.toNat / 2 ^ k % 2 = 1) := by
  rw [BitVec.getLsbD, Nat.testBit_eq_decide_div_mod_eq]

/-- Clearing the low nibble (R403). -/
theorem and_0xF0_toNat (v : Byte) : (v &&& 0xF0#8).toNat = v.toNat / 16 * 16 := by
  have hmask : v &&& 0xF0#8 = (v >>> 4) <<< 4 := by
    apply BitVec.eq_of_getLsbD_eq
    intro k hk
    interval_cases k <;> simp
  have := v.isLt
  rw [hmask, BitVec.toNat_shiftLeft, BitVec.toNat_ushiftRight, Nat.shiftRight_eq_div_pow, Nat.shiftLeft_eq]
  omega

theorem mapperOf_toNat (image : List Byte) :
    (mapperOf image).toNat = (imageByte image 7).toNat / 16 * 16 + (imageByte image 6).toNat / 16 := by
  have hlow : (imageByte image 6).toNat >>> 4 < 2 ^ 4 := by
    have := (imageByte image 6).isLt
    rw [Nat.shiftRight_eq_div_pow]
    omega
  unfold mapperOf
  rw [BitVec.toNat_or, and_0xF0_toNat, BitVec.toNat_ushiftRight, Nat.mul_comm, show 16 = 2 ^ 4 from rfl,
    ← Nat.two_pow_add_eq_or_of_lt hlow, Nat.shiftRight_eq_div_pow]

theorem trainerOf_toNat (image : List Byte) : (trainerOf image).toNat = (imageByte image 6).toNat / 4 % 2 := by
  unfold trainerOf
  rw [getLsbD_eq_div_mod]
  obtain h | h := Nat.mod_two_eq_zero_or_one ((imageByte image 6).toNat / 4) <;> simp [h]

theorem trainerOf_eq (image : List Byte) : trainerOf image = decide ((imageByte image 6).toNat / 4 % 2 = 1) :=
  getLsbD_eq_div_mod _ 2

theorem mirrorOf_eq (image : List Byte) :
    mirrorOf image =
      if (imageByte image 6).toNat / 8 % 2 = 1 then .fourScreen
      else if (imageByte image 6).toNat % 2 = 1 then .vertical
      else .horizontal := by
  unfold mirrorOf
  simp only [getLsbD_eq_div_mod, decide_eq_true_eq, Nat.pow_zero, Nat.div_one]
  rfl

/-- The format variant of byte 7 (R403). -/
theorem formatVariant_iff (v : Byte) : v.extractLsb' 2 2 = 0b10#2 ↔ v.toNat / 4 % 4 = 2 := by
  rw [← BitVec.toNat_inj, BitVec.extractLsb'_toNat, Nat.shiftRight_eq_div_pow]
  rfl

/-- The magic, byte by byte (R403). -/
theorem take_four_eq_magic_iff {image : List Byte} (h : 16 ≤ image.length) :
    image.take 4 = magic ↔
      (imageByte image 0).toNat = 0x4E ∧ (imageByte image 1).toNat = 0x45 ∧ (imageByte image 2).toNat = 0x53 ∧
        (imageByte image 3).toNat = 0x1A := by
  match image, h with
  | b0 :: b1 :: b2 :: b3 :: rest, _ =>
    simp only [imageByte, magic, List.take_succ_cons, List.take_zero, List.cons.injEq, and_true, ← BitVec.toNat_inj]
    rfl

/-! ### The checks -/

/-- The format checks of R404, as numbers: length, magic, variant, mapper and a program segment. -/
def goodFormat (image : List Byte) : Prop :=
  16 ≤ image.length ∧
    ((imageByte image 0).toNat = 0x4E ∧ (imageByte image 1).toNat = 0x45 ∧ (imageByte image 2).toNat = 0x53 ∧
      (imageByte image 3).toNat = 0x1A) ∧
    (imageByte image 7).toNat / 4 % 4 ≠ 2 ∧
    (imageByte image 7).toNat / 16 * 16 + (imageByte image 6).toNat / 16 = 0 ∧ 1 ≤ (imageByte image 4).toNat

/-- The segments are no larger than the machine takes (R404). -/
def segmentsFit (image : List Byte) : Prop := (imageByte image 4).toNat ≤ 2 ∧ (imageByte image 5).toNat ≤ 1

/-- The image holds its segments (R404). -/
def longEnough (image : List Byte) : Prop :=
  16 + 512 * ((imageByte image 6).toNat / 4 % 2) + 16384 * (imageByte image 4).toNat + 8192 * (imageByte image 5).toNat ≤
    image.length

/-- What the header of an image that passes every check says (R403). -/
def cartridgeOf (image : List Byte) : Cartridge :=
  { prgUnits := if (imageByte image 4).toNat = 1 then .one else .two
    chrUnits := if (imageByte image 5).toNat = 0 then .zero else .one
    ntMirror := mirrorOf image
    trainer := trainerOf image }

/-- The first five checks, as `loadImage` makes them. -/
theorem goodFormat_iff (image : List Byte) :
    goodFormat image ↔
      ¬ image.length < 16 ∧ ¬ image.take 4 ≠ magic ∧ ¬ (imageByte image 7).extractLsb' 2 2 = 0b10#2 ∧
        ¬ mapperOf image ≠ 0 ∧ ¬ (imageByte image 4).toNat < 1 := by
  unfold goodFormat
  rw [← mapperOf_toNat, ← byte_eq_zero, Nat.not_lt, Nat.not_lt, not_not, not_not, formatVariant_iff]
  exact and_congr_right fun hlen => and_congr_left fun _ => (take_four_eq_magic_iff hlen).symm

theorem loadImage_of_not_goodFormat {image : List Byte} (h : ¬ goodFormat image) :
    loadImage image = .error (.unsupportedFormat (image.take 16)) := by
  unfold loadImage
  dsimp only
  split
  · rfl
  split
  · rfl
  split
  · rfl
  split
  · rfl
  split
  · rfl
  · next h1 h2 h3 h4 h5 => exact absurd ((goodFormat_iff image).mpr ⟨h1, h2, h3, h4, h5⟩) h

/-- An image of a good format is taken by its sizes. -/
theorem loadImage_of_goodFormat {image : List Byte} (h : goodFormat image) :
    loadImage image =
      if 2 < (imageByte image 4).toNat ∨ 1 < (imageByte image 5).toNat then .error (.imageTooLarge (image.take 16))
      else if image.length < prgOffset (trainerOf image) + 16384 * (imageByte image 4).toNat +
          8192 * (imageByte image 5).toNat then .error (.unsupportedFormat (image.take 16))
      else .ok (cartridgeOf image) := by
  obtain ⟨h1, h2, h3, h4, h5⟩ := (goodFormat_iff image).mp h
  unfold loadImage
  dsimp only
  rw [if_neg h1, if_neg h2, if_neg h3, if_neg h4, if_neg h5]
  rfl

theorem segmentsFit_iff (image : List Byte) :
    segmentsFit image ↔ ¬ (2 < (imageByte image 4).toNat ∨ 1 < (imageByte image 5).toNat) := by
  unfold segmentsFit
  omega

theorem longEnough_iff (image : List Byte) :
    longEnough image ↔
      ¬ image.length < prgOffset (trainerOf image) + 16384 * (imageByte image 4).toNat + 8192 * (imageByte image 5).toNat := by
  unfold longEnough prgOffset
  rw [trainerOf_toNat, Nat.not_lt]

theorem cartridgeOf_eq (image : List Byte) :
    cartridgeOf image =
      { prgUnits := if (imageByte image 4).toNat = 1 then .one else .two
        chrUnits := if (imageByte image 5).toNat = 0 then .zero else .one
        ntMirror :=
          if (imageByte image 6).toNat / 8 % 2 = 1 then .fourScreen
          else if (imageByte image 6).toNat % 2 = 1 then .vertical
          else .horizontal
        trainer := decide ((imageByte image 6).toNat / 4 % 2 = 1) } := by
  unfold cartridgeOf
  rw [mirrorOf_eq, trainerOf_eq]

/-- Settles O56: the checks in order, each as a number. -/
theorem loaderChecks : Obligations.LoaderChecks := by
  intro image
  refine ⟨loadImage_of_not_goodFormat, fun hg hf => ?tooLarge, fun hg hf hl => ?truncated, fun hg hf hl => ?loaded⟩
  case tooLarge =>
    have hlarge := not_not.mp ((segmentsFit_iff image).not.mp hf)
    rw [loadImage_of_goodFormat hg, if_pos hlarge]
  case truncated =>
    have hshort := not_not.mp ((longEnough_iff image).not.mp hl)
    rw [loadImage_of_goodFormat hg, if_neg ((segmentsFit_iff image).mp hf), if_pos hshort]
  case loaded =>
    rw [loadImage_of_goodFormat hg, if_neg ((segmentsFit_iff image).mp hf), if_neg ((longEnough_iff image).mp hl), cartridgeOf_eq]
    rfl

/-- An image that is taken has passed every check. -/
theorem loadImage_eq_ok {image : List Byte} {c : Cartridge} (h : loadImage image = .ok c) :
    goodFormat image ∧ segmentsFit image ∧ longEnough image ∧ c = cartridgeOf image := by
  obtain ⟨hformat, hfit, hlong, -⟩ := loaderChecks image
  have hg : goodFormat image := by
    by_contra hn
    have := loadImage_of_not_goodFormat hn
    rw [h] at this
    cases this
  rw [loadImage_of_goodFormat hg] at h
  split at h
  · cases h
  · next hf =>
    split at h
    · cases h
    · next hl => exact ⟨hg, (segmentsFit_iff image).mpr hf, (longEnough_iff image).mpr hl, (Except.ok.inj h).symm⟩

/-! ### Power-on -/

/-- Bytes of tile bitmaps in the image (R406). -/
def chrBytes (u : ChrUnits) : Nat :=
  match u with
  | .zero => 0
  | .one => 8192

/-- The segments of an image that is taken lie inside it (R404). -/
theorem segments_le_length {image : List Byte} {c : Cartridge} (h : loadImage image = .ok c) :
    prgOffset c.trainer + prgBytes c.prgUnits + chrBytes c.chrUnits ≤ image.length := by
  obtain ⟨⟨-, -, -, -, hprg⟩, ⟨hprg', hchr⟩, hlong, rfl⟩ := loadImage_eq_ok h
  rw [longEnough_iff, Nat.not_lt] at hlong
  have hp : prgBytes (cartridgeOf image).prgUnits = 16384 * (imageByte image 4).toNat := by
    obtain h1 | h2 : (imageByte image 4).toNat = 1 ∨ (imageByte image 4).toNat = 2 := by omega
    · simp [cartridgeOf, h1, prgBytes]
    · simp [cartridgeOf, h2, prgBytes]
  have hc : chrBytes (cartridgeOf image).chrUnits = 8192 * (imageByte image 5).toNat := by
    obtain h0 | h1 : (imageByte image 5).toNat = 0 ∨ (imageByte image 5).toNat = 1 := by omega
    · simp [cartridgeOf, h0, chrBytes]
    · simp [cartridgeOf, h1, chrBytes]
  rw [hp, hc]
  exact hlong

/-- A slice of an image laid over an array: inside it the image's bytes, elsewhere the array's. -/
theorem Memory.read_overlay_slice (m : Memory) (base o n : Nat) (image : List Byte) (h : o + n ≤ image.length) (k : Nat) :
    Memory.read (m.overlay base ((image.drop o).take n)) k =
      if base ≤ k ∧ k < base + n then image.getD (o + (k - base)) 0 else m.read k := by
  have hlen : ((image.drop o).take n).length = n := by
    rw [List.length_take, List.length_drop]
    omega
  rw [Memory.read_overlay, hlen]
  split
  · next hk =>
    simp only [List.getD_eq_getElem?_getD, List.getElem?_take, List.getElem?_drop]
    rw [if_pos (by omega)]
    rfl
  · rfl

theorem loadMem_read (c : Cartridge) (ram0 : Memory) {image : List Byte}
    (h : prgOffset c.trainer + prgBytes c.prgUnits ≤ image.length) (k : Nat) :
    (loadMem c ram0 image).read k =
      if 0x8000 ≤ k ∧ k < 0x8000 + prgBytes c.prgUnits then image.getD (prgOffset c.trainer + (k - 0x8000)) 0
      else ram0.read k :=
  Memory.read_overlay_slice _ _ _ _ _ h k

theorem loadVram_read (c : Cartridge) (vram0 : Memory) {image : List Byte}
    (h : prgOffset c.trainer + prgBytes c.prgUnits + chrBytes c.chrUnits ≤ image.length) (k : Nat) :
    (loadVram c vram0 image).read k =
      if k < 0x2000 then
        (if c.chrUnits = .one then image.getD (prgOffset c.trainer + prgBytes c.prgUnits + k) 0 else 0)
      else vram0.read k := by
  have hrange : (0x0000 ≤ k ∧ k < 0x0000 + 8192) ↔ k < 0x2000 := by omega
  unfold loadVram
  cases hu : c.chrUnits with
  | zero =>
    dsimp only
    rw [Memory.read_overlay, List.length_replicate]
    simp only [hrange]
    split
    · next hk => exact List.getD_replicate _ hk
    · rfl
  | one =>
    rw [hu] at h
    have hslice := Memory.read_overlay_slice vram0 0x0000 _ 8192 image h k
    simp only [hrange, Nat.sub_zero] at hslice
    exact hslice

/-- Settles O57: the overlays are read as laid out, and the reset that ends power-on writes the registers alone. -/
theorem powerOnLaysOutTheImage : Obligations.PowerOnLaysOutTheImage := by
  intro q image
  refine ⟨fun e h => ?error, fun c h => ?loaded⟩
  case error =>
    unfold powerOn
    rw [h]
  case loaded =>
    have hlen := segments_le_length h
    have hreset := resetReinitializesTheProcessor
      (beforeReset (configOf c q) (loadMem c q.ram0 image) (loadVram c q.vram0 image)) rfl
    have hprg : (if c.prgUnits = .one then 16384 else 32768) = prgBytes c.prgUnits := by cases c.prgUnits <;> rfl
    refine ⟨_, by unfold powerOn; rw [h], ?_⟩
    dsimp only
    rw [hreset, hprg]
    exact ⟨loadMem_read c q.ram0 (by omega), loadVram_read c q.vram0 hlen, rfl, rfl⟩

end Sys2Proof.Machine
end
